-- ==== Sys2Proof/Word.lean ====
section
/-! DEFINITION. The words of the block: its operand and register width, the byte of the host's
addressing, and the 64-bit width of products and Bézout coefficients (00_scope.md R5). -/

namespace Sys2Proof

/-- One byte of the host's byte addressing (20_memory.md R54). -/
abbrev Byte := BitVec 8

/-- A register, operand or residue: 32 bits, used as an unsigned integer (R5, R76). -/
abbrev Word := BitVec 32

/-- An intermediate product (unsigned) or a Bézout coefficient (two's complement) (R5). -/
abbrev DWord := BitVec 64

end Sys2Proof
end

