-- ==== Sys2Proof/Machine/Bus.lean ====
section
/-! DEFINITION. The types of the host's side: register mnemonics, bus accesses, what the host program is
made of, and who moves next (10_state.md R22, 20_memory.md R52, 30_encoding.md R86, 00_scope.md R13). -/

namespace Sys2Proof.Machine

/-- The host-visible registers (10_state.md R22). -/
inductive BusReg
  | cmd | status | opa | opb | opn | res | sLo | sHi | tLo | tHi | tcount | capr
  deriving DecidableEq, Repr

/-- The width of a host access; only 32 bits is admitted (20_memory.md R52). -/
inductive AccessWidth
  | w8 | w16 | w32 | w64
  deriving DecidableEq, Repr

/-- A host variable of the host notation, by number (30_encoding.md R86). -/
abbrev HostVar := Nat

/-- The value a host operation uses: a u32 number or a host variable (R86). -/
inductive HostValue
  | lit (w : Word)
  | var (x : HostVar)
  deriving DecidableEq, Repr

/-- A host computation on host variables: pseudocode arithmetic on mathematical integers (00_scope.md R8,
R9; R86). -/
inductive HostExpr
  | lit (n : Nat)
  | var (x : HostVar)
  | add (a b : HostExpr)
  | sub (a b : HostExpr)
  | mul (a b : HostExpr)
  /-- `a div b`, floor division (R9). -/
  | div (a b : HostExpr)
  /-- `a mod b`, the non-negative remainder (R9). -/
  | mod (a b : HostExpr)
  /-- `a[hi:lo]`; `a[i]` is `a[i:i]` (R8). -/
  | bits (a : HostExpr) (hi lo : Nat)
  deriving DecidableEq, Repr

/-- The condition of an `if` in a host computation (R86). -/
inductive HostCond
  /-- An unconditional `goto`. -/
  | always
  | eq (a b : HostExpr)
  | lt (a b : HostExpr)
  | not (c : HostCond)
  | and (c d : HostCond)
  deriving DecidableEq, Repr

/-- A label of a host program, by number (R86). -/
abbrev HostLabel := Nat

/-- One operation of the host, in its program order. Offsets are from `BASE` (R10, R52). -/
inductive HostOp
  /-- `x <- BusRead(off)`, of any width and offset: the window admits or refuses it. -/
  | read (x : HostVar) (width : AccessWidth) (off : Nat)
  /-- `BusWrite(off, v)`, of any width and offset. -/
  | write (width : AccessWidth) (off : Nat) (v : HostValue)
  /-- `WAIT`: repeat `t <- BusRead(0x04)` until `t[0] = 0` (R86). -/
  | wait
  /-- `host: x <- e`: a host computation; no bus access (R86). -/
  | host (x : HostVar) (e : HostExpr)
  /-- `host: if c then goto l`: control flow on host variables; no bus access (R86). -/
  | goto (c : HostCond) (l : HostLabel)
  deriving DecidableEq, Repr

/-- Who takes the next step: the host, the engine, or a reset applied by the environment
(00_scope.md R13, R14). -/
inductive Turn
  | host | engine | reset
  deriving DecidableEq, Repr

/-- Direction of a bus transaction, `R` or `W` (30_encoding.md R88). -/
inductive BusDir
  | read | write
  deriving DecidableEq, Repr

/-- One admitted bus transaction `(W|R, offset, value)` (R88). -/
structure BusTransaction where
  dir : BusDir
  off : Nat
  value : Word
  deriving DecidableEq, Repr

end Sys2Proof.Machine
end

