-- ==== Sys2Proof/Machine/Hasm.lean ====
section
/-! DEFINITION. The statements of the host assembly notation HASM, before assembly
(30_encoding.md R86, R87). -/

namespace Sys2Proof.Machine

/-- An operand of a HASM statement: a number as written, or a host variable (R86). -/
inductive HasmArg
  | num (n : Nat)
  | var (x : HostVar)
  deriving DecidableEq, Repr

/-- A HASM statement (R86) or pseudo-instruction (R87). -/
inductive Hasm
  /-- `WR reg, value` -/
  | wr (r : BusReg) (v : HasmArg)
  /-- `RD var, reg` -/
  | rd (x : HostVar) (r : BusReg)
  /-- `WAIT` -/
  | wait
  /-- `host: x <- e` -/
  | host (x : HostVar) (e : HostExpr)
  /-- `host: if c then goto l`; loops are built from it. -/
  | goto (c : HostCond) (l : HostLabel)
  /-- `l:`, a label, which names the line after it. -/
  | label (l : HostLabel)
  /-- `GCD A, B` -/
  | gcd (a b : HasmArg)
  /-- `XGCD A, B` -/
  | xgcd (a b : HasmArg)
  /-- `MODINV A, N` -/
  | modinv (a n : HasmArg)
  /-- `MODPOW a, e, n` -/
  | modpow (a e n : HasmArg)
  /-- `TCLR` -/
  | tclr
  /-- `TINS r, x` -/
  | tins (r x : HasmArg)
  /-- `TLKP r` -/
  | tlkp (r : HasmArg)
  /-- `CLRDONE` -/
  | clrdone
  /-- `CLROVR` -/
  | clrovr
  deriving DecidableEq, Repr

end Sys2Proof.Machine
end

