-- ==== Sys2Proof/Syntax.lean ====
section
/-! DEFINITION. The commands of the block: one constructor per row of spec/opcode_table.json. A command
word has no operand field (30_encoding.md R75, R76), so no constructor takes an argument. -/

namespace Sys2Proof

/-- The seven commands of the opcode map (30_encoding.md R78). -/
inductive Instr
  /-- Opcode 0x01, R96: greatest common divisor with the zero convention. -/
  | gcd
  /-- Opcode 0x02, R99: extended Euclid with Bézout coefficients. -/
  | xgcd
  /-- Opcode 0x03, R103: modular inverse. -/
  | modinv
  /-- Opcode 0x04, R111: modular exponentiation. -/
  | modpow
  /-- Opcode 0x10, R121: empty the table. -/
  | tclr
  /-- Opcode 0x11, R125: insert an entry. -/
  | tins
  /-- Opcode 0x12, R129: look up a residue. -/
  | tlkp
  deriving DecidableEq, Repr

end Sys2Proof
end

