-- ==== Sys2Proof/WellFormed.lean ====
section
/-! DEFINITION. Well-formedness of the syntax: of a command, and of a HASM statement, whose numbers must
fit in u32 (30_encoding.md R75, R86). -/

namespace Sys2Proof

/-- Every command is well formed: a command word has no operand field that could be out of range
(30_encoding.md R75, R76). -/
def Instr.wellFormed (i : Instr) : Bool :=
  match i with
  | .gcd => true
  | .xgcd => true
  | .modinv => true
  | .modpow => true
  | .tclr => true
  | .tins => true
  | .tlkp => true

/-- A HASM number must fit in u32 (R86). -/
def Machine.HasmArg.wellFormed (v : Machine.HasmArg) : Bool :=
  match v with
  | .num n => decide (n < 2 ^ 32)
  | .var _ => true

/-- Every number of a host computation fits in u32 (R86). -/
def Machine.HostExpr.wellFormed (e : Machine.HostExpr) : Bool :=
  match e with
  | .lit n => decide (n < 2 ^ 32)
  | .var _ => true
  | .add a b => a.wellFormed && b.wellFormed
  | .sub a b => a.wellFormed && b.wellFormed
  | .mul a b => a.wellFormed && b.wellFormed
  | .div a b => a.wellFormed && b.wellFormed
  | .mod a b => a.wellFormed && b.wellFormed
  | .bits a hi lo => a.wellFormed && decide (hi < 2 ^ 32) && decide (lo < 2 ^ 32)

/-- Every number of a condition fits in u32 (R86). -/
def Machine.HostCond.wellFormed (c : Machine.HostCond) : Bool :=
  match c with
  | .always => true
  | .eq a b => a.wellFormed && b.wellFormed
  | .lt a b => a.wellFormed && b.wellFormed
  | .not c => c.wellFormed
  | .and c d => c.wellFormed && d.wellFormed

/-- A HASM statement is refused when a number in it does not fit in u32 (R86). -/
def Machine.Hasm.wellFormed (h : Machine.Hasm) : Bool :=
  match h with
  | .wr _ v => v.wellFormed
  | .rd _ _ => true
  | .wait => true
  | .host _ e => e.wellFormed
  | .goto c _ => c.wellFormed
  | .label _ => true
  | .gcd a b => a.wellFormed && b.wellFormed
  | .xgcd a b => a.wellFormed && b.wellFormed
  | .modinv a n => a.wellFormed && n.wellFormed
  | .modpow a e n => a.wellFormed && e.wellFormed && n.wellFormed
  | .tclr => true
  | .tins r x => r.wellFormed && x.wellFormed
  | .tlkp r => r.wellFormed
  | .clrdone => true
  | .clrovr => true

end Sys2Proof
end

