-- ==== Sys2Proof/Decode.lean ====
section
/-! DEFINITION. Decoding of a command word, total on every word and rejecting by name; the encoder; and
the byte order of the host window (30_encoding.md R75 to R85, 20_memory.md R54). -/

namespace Sys2Proof

/-- Why a word is no command (30_encoding.md R81). -/
inductive DecodeError
  /-- `word[7:0]` is not in the opcode map (R82). -/
  | illegalOpcode
  /-- The opcode is legal and `word[31:8]` is not 0 (R83). -/
  | reservedBits
  deriving DecidableEq, Repr

/-- OPCODE, bits 7:0 of the command word (R75). -/
def opcodeField (w : Word) : BitVec 8 := w.extractLsb' 0 8

/-- RSVD, bits 31:8 of the command word (R75). -/
def reservedField (w : Word) : BitVec 24 := w.extractLsb' 8 24

/-- The opcode map, read from an opcode (R78). -/
def instrOfOpcode (op : BitVec 8) : Option Instr :=
  if op = 0x01#8 then some .gcd
  else if op = 0x02#8 then some .xgcd
  else if op = 0x03#8 then some .modinv
  else if op = 0x04#8 then some .modpow
  else if op = 0x10#8 then some .tclr
  else if op = 0x11#8 then some .tins
  else if op = 0x12#8 then some .tlkp
  else none

/-- Decoding of a command word (R81): the opcode check comes before the reserved-bits check. -/
def decode (w : Word) : Except DecodeError Instr :=
  match instrOfOpcode (opcodeField w) with
  | none => .error .illegalOpcode
  | some i => if reservedField w = 0 then .ok i else .error .reservedBits

/-- The opcode map, read from a command (R78). -/
def opcodeOf (i : Instr) : BitVec 8 :=
  match i with
  | .gcd => 0x01#8
  | .xgcd => 0x02#8
  | .modinv => 0x03#8
  | .modpow => 0x04#8
  | .tclr => 0x10#8
  | .tins => 0x11#8
  | .tlkp => 0x12#8

/-- The command word of a command: OPCODE in bits 7:0 and RSVD = 0 (R75, R78). -/
def encode (i : Instr) : Word := 0#24 ++ opcodeOf i

/-- Byte `k` of a word in the host's byte addressing: bits `[8k+7 : 8k]` (20_memory.md R54). -/
def byteOfWord (w : Word) (k : Nat) : Byte := w.extractLsb' (8 * k) 8

/-- The four bytes of a word, the one at the lowest address first (R54). -/
def bytesOfWord (w : Word) : List Byte :=
  [byteOfWord w 0, byteOfWord w 1, byteOfWord w 2, byteOfWord w 3]

/-- The word that four bytes make, lowest address first; any other number of bytes is no whole
command word (R54, R80). -/
def wordOfBytes (bs : List Byte) : Option Word :=
  match bs with
  | [b0, b1, b2, b3] => some (b3 ++ b2 ++ b1 ++ b0)
  | _ => none

/-- The decoder over bytes as they lie in the host's address space: `none` where they are not one
whole word or the word is refused. -/
def decodeBytes (bs : List Byte) : Option Instr :=
  match wordOfBytes bs with
  | none => none
  | some w => (decode w).toOption

/-- The word a table row's bits make: bit 0 is the least significant bit, and every bit above
`nbits` is 0 (R8, R80). -/
def tableWord (nbits w : Nat) : Word := BitVec.ofNat 32 (w % 2 ^ nbits)

/-- What the decoder reads from an instruction whose `nbits` low bits are `w`. Every command word is
exactly 32 bits (R80), so a number that does not fit in 32 bits is no command. -/
def decodeTableWord (nbits w : Nat) : Option Instr :=
  if w % 2 ^ nbits < 2 ^ 32 then decodeBytes (bytesOfWord (tableWord nbits w)) else none

end Sys2Proof
end

