-- ==== Sys2Proof/Config.lean ====
section
/-! DEFINITION. What the platform or the hardware fixes, and the free values: constants without a body,
which nothing in Lean can evaluate (00_scope.md R5, 92_eei_decisions.md 'Open parameters'). -/

namespace Sys2Proof

/-- `CAP` of this hardware, a prime (R5, R7). It is the reset value of the register CAPR; every rule
of the model reads the capacity from CAPR, so that a state with a smaller CAPR is the test
configuration of R6. -/
def Config.capacity : Nat := 131101

/-- The least capacity any configuration may have (R6, decision D19). -/
def Config.minCapacity : Nat := 32

/-- Bytes of the host window (R5, R51). -/
def Config.windowBytes : Nat := 64

/-- OPEN (92_eei_decisions.md D2): which multiple of 64 the platform chose for `BASE`. A free value. -/
opaque Config.baseIndex : Nat

/-- `BASE`, the host address of the window: a multiple of 64 (R5, R51). -/
def Config.base : Nat := Config.windowBytes * Config.baseIndex

/-- A free value: the 64 bits (20_memory.md R61's layout) of table slot `k` after the `era`-th reset,
which the spec leaves unspecified (10_state.md R44, 93_implementation_defined.md I-1). -/
opaque Config.unspecifiedSlot (era k : Nat) : DWord

/-- A free value: what a host variable holds before the host program has given it a value; the host
notation of 30_encoding.md R86 states none. -/
opaque Config.unsetHostVar (x : Nat) : Int

/-- A free value: the word a bus write carries where a host variable's integer does not fit in u32; R86
admits numbers that fit, and states nothing of variables. -/
opaque Config.unfitHostValue (z : Int) : Word

/-- A free value: `x div y` in a host computation where `y ≤ 0`; 00_scope.md R9 defines it for `y > 0`. -/
opaque Config.openQuotient (x y : Int) : Int

/-- A free value: `x mod y` in a host computation where `y ≤ 0` (R9). -/
opaque Config.openRemainder (x y : Int) : Int

/-- A free value: `z[hi:lo]` in a host computation where `z` is negative or `hi < lo`; 00_scope.md R8 states
neither. -/
opaque Config.openBits (z : Int) (hi lo : Nat) : Int

/-- Bound on the iterations of MODPOW's loop (10_state.md R43, 41_modexp_engine.md R111). -/
def Config.powIterations : Nat := 32

/-- Bound on the iterations of the Euclidean loop in the model. R177 gives 45 for u32 operands; the
model allows 64, and the loop ends by its own guard before either bound. -/
def Config.euclidIterations : Nat := 64

end Sys2Proof
end

