-- ==== Sys2Proof/Machine/State.lean ====
section
/-! DEFINITION. The state of the machine: every register, latch and flag of the block, the table, and the
host's side, as plain data; and the state right after reset (10_state.md R20, R44). -/

namespace Sys2Proof.Machine

/-- A table slot: the record of an exponent and a residue (20_memory.md R58). -/
structure Slot where
  exp : Word
  res : Word
  deriving DecidableEq, Repr

/-- The slot TCLR writes (42_mitm_table.md R121). -/
def Slot.empty : Slot := { exp := 0, res := 0 }

/-- Contents of the table memory as (slot index, slot) pairs: indices strictly rising, and no entry
equal to `Slot.empty` (20_memory.md R50, R58; the canonical form is `Memory.wf` of Ops.lean). -/
abbrev Memory := List (Nat × Slot)

/-- The host's side of the model: what the environment will do and what the host has seen
(00_scope.md R13, R14). These are the MODEL's own fields, not the block's state. -/
structure Env where
  /-- Who moves next, as far as the environment has fixed it (the schedule of R14). -/
  schedule : List Turn
  /-- What is left of the host program. -/
  program : List HostOp
  /-- Where each label of the host program stands: what is left of the program from there. -/
  labels : List (HostLabel × List HostOp)
  /-- Host variables that hold a value. -/
  vars : List (HostVar × Int)
  /-- The admitted bus transactions so far, oldest first (30_encoding.md R88). -/
  trace : List BusTransaction
  deriving DecidableEq, Repr

/-- The state of the machine (10_state.md R20). -/
structure State where
  /-- STATUS[0], the engine phase (R27). -/
  busy : Bool
  /-- STATUS[1] (R28). -/
  done : Bool
  /-- STATUS[2] (R29). -/
  ok : Bool
  /-- STATUS[7:4] (R30). -/
  err : BitVec 4
  /-- STATUS[8] (R31). -/
  cmdovr : Bool
  /-- STATUS[9] (R33). -/
  tvalid : Bool
  /-- First operand register (R32). -/
  opa : Word
  /-- Second operand register (R32). -/
  opb : Word
  /-- Modulus register (R32). -/
  opn : Word
  /-- Primary result (R34). -/
  res : Word
  /-- Coefficient S, bits 31:0 (R34). -/
  sLo : Word
  /-- Coefficient S, bits 63:32 (R34). -/
  sHi : Word
  /-- Coefficient T, bits 31:0 (R34). -/
  tLo : Word
  /-- Coefficient T, bits 63:32 (R34). -/
  tHi : Word
  /-- Number of filled slots (R35). -/
  tcount : Word
  /-- The constant CAP (R22, R35). -/
  capr : Word
  /-- Latched command word (R37). -/
  lcmd : Word
  /-- Latched OPA (R37). -/
  la : Word
  /-- Latched OPB (R37). -/
  lb : Word
  /-- Latched OPN (R37). -/
  ln : Word
  /-- The table (20_memory.md R58). -/
  tab : Memory
  /-- The MODEL's own: how many resets came since power-on; it selects the free value of the
  unspecified table contents (R44). -/
  resets : Nat
  /-- The MODEL's own: the host's side. -/
  env : Env
  deriving DecidableEq, Repr

/-- Why the machine stops with a fault. -/
inductive Fault
  /-- A host access the window does not admit: a width other than 32 bits, or an offset that is not a
  multiple of 4 or lies outside the window (20_memory.md R52, 60_exceptions.md R146). Raised by
  `runHostOp`. SAFE: the spec itself faults the host's run for good. -/
  | busError
  /-- TINS finds no empty slot in CAP probes although TCOUNT ≠ CAP. The spec's loop (R125) would not
  end there; it proves that no run gets there (42_mitm_table.md R124, R128). Raised by `execTins`
  only in states that no run reaches. SAFE: the machine stops. -/
  | probeEndless
  deriving DecidableEq, Repr

/-- Why the machine refuses an instruction. -/
inductive Refusal
  /-- An instruction without a meaning, by its mnemonic. No arm of `exec` raises it. SAFE. -/
  | notModelled (mnemonic : String)
  deriving DecidableEq, Repr

/-- The machine right after reset (10_state.md R44, 70_reset_and_hazards.md R165): every register, flag
and latch 0, CAPR = CAP, the engine idle, and nothing of the table known. The host's side is empty and
the reset count is 0 (the model's own fields; assumption log entries 2 and 3). -/
def State.reset : State where
  busy := false
  done := false
  ok := false
  err := 0
  cmdovr := false
  tvalid := false
  opa := 0
  opb := 0
  opn := 0
  res := 0
  sLo := 0
  sHi := 0
  tLo := 0
  tHi := 0
  tcount := 0
  capr := BitVec.ofNat 32 Config.capacity
  lcmd := 0
  la := 0
  lb := 0
  ln := 0
  tab := []
  resets := 0
  env := { schedule := [], program := [], labels := [], vars := [], trace := [] }

end Sys2Proof.Machine
end

