-- ==== Sys2Proof/Machine/Flags.lean ====
section
/-! DEFINITION. STATUS: its error codes, its layout on a read, its write effect, and how a command's end
sets it (10_state.md R24 to R31, R36, R38; 60_exceptions.md R141, R142). -/

namespace Sys2Proof.Machine

/-- The errors a command can end in (60_exceptions.md R141). -/
inductive ErrCode
  | illegalOpcode | reservedBits | tableUninit | residueZero | tableFull
  deriving DecidableEq, Repr

/-- The code in STATUS.ERR (60_exceptions.md R141). -/
def ErrCode.code (c : ErrCode) : BitVec 4 :=
  match c with
  | .illegalOpcode => 1#4
  | .reservedBits => 2#4
  | .tableUninit => 3#4
  | .residueZero => 4#4
  | .tableFull => 5#4

/-- The error a word that is no command ends in (30_encoding.md R81 to R83). -/
def ErrCode.ofDecode (e : DecodeError) : ErrCode :=
  match e with
  | .illegalOpcode => .illegalOpcode
  | .reservedBits => .reservedBits

/-- What a read of STATUS returns (10_state.md R26):
`zext_32({TVALID, CMDOVR, ERR, 0b0, OK, DONE, BUSY})`. -/
def State.statusWord (s : State) : Word :=
  BitVec.setWidth 32
    (BitVec.ofBool s.tvalid ++ BitVec.ofBool s.cmdovr ++ s.err ++ 0#1 ++ BitVec.ofBool s.ok ++
      BitVec.ofBool s.done ++ BitVec.ofBool s.busy)

/-- A host write to STATUS: DONE and CMDOVR are cleared by writing 1 to them, and every other bit of
the word is ignored (R25). -/
def State.writeStatus (v : Word) (s : State) : State :=
  { s with
    done := if v.getLsbD 1 then false else s.done
    cmdovr := if v.getLsbD 8 then false else s.cmdovr }

/-- `finish(ok)`, together with the completion step's end: `OK <- ok ; ERR <- 0 ; DONE <- 1 ; BUSY <- 0`
(10_state.md R36, R40). -/
def State.finish (okv : Bool) (s : State) : State :=
  { s with ok := okv, err := 0, done := true, busy := false }

end Sys2Proof.Machine
end

