-- ==== Sys2Proof/Machine/Operands.lean ====
section
/-! DEFINITION. Where a command finds its operands and leaves its results: the latches LA, LB, LN read as
unsigned integers, and the result registers (10_state.md R32, R34, R37; 30_encoding.md R76, R77). -/

namespace Sys2Proof.Machine

/-- The first operand (`A`, `a` or a residue) of the latched command (R32, R76). -/
abbrev State.opndA (s : State) : Nat := s.la.toNat

/-- The second operand (`B`, `e` or an exponent) of the latched command (R32, R76). -/
abbrev State.opndB (s : State) : Nat := s.lb.toNat

/-- The modulus (`n` or `N`) of the latched command (R32, R76). -/
abbrev State.opndN (s : State) : Nat := s.ln.toNat

/-- The capacity CAP, held by CAPR (R35). -/
abbrev State.cap (s : State) : Nat := s.capr.toNat

/-- Which of the operands a command reads (the table of R32). -/
structure OperandUse where
  a : Bool
  b : Bool
  n : Bool
  deriving DecidableEq, Repr

/-- The operands each command reads (10_state.md R32). -/
def operandUse (i : Instr) : OperandUse :=
  match i with
  | .gcd => { a := true, b := true, n := false }
  | .xgcd => { a := true, b := true, n := false }
  | .modinv => { a := true, b := false, n := true }
  | .modpow => { a := true, b := true, n := true }
  | .tclr => { a := false, b := false, n := false }
  | .tins => { a := true, b := true, n := false }
  | .tlkp => { a := true, b := false, n := false }

/-- `RES <- v`, for a value the command's rule shows to fit in u32 (R9, R34). -/
def State.setRes (v : Nat) (s : State) : State := { s with res := BitVec.ofNat 32 v }

/-- `S <- S ; T <- T` as two's-complement 64-bit values, each in a low and a high word
(40_gcd_unit.md R99, 20_memory.md R54). -/
def State.setBezout (S T : Int) (s : State) : State :=
  { s with
    sLo := (BitVec.ofInt 64 S).extractLsb' 0 32
    sHi := (BitVec.ofInt 64 S).extractLsb' 32 32
    tLo := (BitVec.ofInt 64 T).extractLsb' 0 32
    tHi := (BitVec.ofInt 64 T).extractLsb' 32 32 }

/-- The s64 value `{S_HI, S_LO}` (R34). -/
def State.bezoutS (s : State) : Int := (s.sHi ++ s.sLo).toInt

/-- The s64 value `{T_HI, T_LO}` (R34). -/
def State.bezoutT (s : State) : Int := (s.tHi ++ s.tLo).toInt

end Sys2Proof.Machine
end

