-- ==== Sys2Proof/Machine/Ops.lean ====
section
/-! DEFINITION. The named operations every family shares: a map in one canonical form, the table memory
and its probe walks, the error end of a command, accept and drop of a command word, and reset. The block
has no trap entry and no trap return (60_exceptions.md R149, R150): `State.raiseErr` is all that an error
does. -/

namespace Sys2Proof.Machine

/-! ## A map from numbers to data, sorted by key -/

/-- The value at a key, or `none` where the key is not listed. -/
def Assoc.find {β : Type} : List (Nat × β) → Nat → Option β
  | [], _ => none
  | (j, e) :: m, k => if k = j then some e else Assoc.find m k

/-- Put a value at a key, keeping the keys strictly rising. -/
def Assoc.put {β : Type} : List (Nat × β) → Nat → β → List (Nat × β)
  | [], k, e => [(k, e)]
  | (j, f) :: m, k, e =>
    if k < j then (k, e) :: (j, f) :: m
    else if k = j then (k, e) :: m
    else (j, f) :: Assoc.put m k e

/-- Remove a key. -/
def Assoc.erase {β : Type} : List (Nat × β) → Nat → List (Nat × β)
  | [], _ => []
  | (j, f) :: m, k => if k = j then m else (j, f) :: Assoc.erase m k

/-- The keys rise strictly, and the first is above `lo` where a bound is given. -/
def Assoc.sortedFrom {β : Type} : Option Nat → List (Nat × β) → Bool
  | _, [] => true
  | none, (k, _) :: m => Assoc.sortedFrom (some k) m
  | some lo, (k, _) :: m => decide (lo < k) && Assoc.sortedFrom (some k) m

/-! ## The table memory (20_memory.md R57 to R61) -/

/-- The canonical form of the table memory: slot indices strictly rising, no listed slot equal to the
empty slot. -/
def Memory.wf (m : Memory) : Bool :=
  Assoc.sortedFrom none m && m.all (fun p => decide (p.2 ≠ Slot.empty))

/-- Write one slot, keeping the canonical form: writing the empty slot removes the entry. -/
def Memory.write (m : Memory) (k : Nat) (e : Slot) : Memory :=
  if e = Slot.empty then Assoc.erase m k else Assoc.put m k e

/-- The 64 bits of a slot: `slot[31:0] = res`, `slot[63:32] = exp` (20_memory.md R61). -/
def Slot.toBits (e : Slot) : DWord := e.exp ++ e.res

/-- The slot of 64 bits (20_memory.md R61). -/
def Slot.ofBits (b : DWord) : Slot := { exp := b.extractLsb' 32 32, res := b.extractLsb' 0 32 }

/-- What a slot that is not listed holds: the empty slot once TCLR has run (TVALID = 1,
42_mitm_table.md R121), and an unspecified value, a free value of the model, before (10_state.md R44,
93_implementation_defined.md I-1). -/
def State.unlistedSlot (s : State) (k : Nat) : Slot :=
  if s.tvalid then Slot.empty else Slot.ofBits (Config.unspecifiedSlot s.resets k)

/-- `TAB[k]` (00_scope.md R10, 20_memory.md R58). -/
def State.slot (s : State) (k : Nat) : Slot :=
  match Assoc.find s.tab k with
  | some e => e
  | none => s.unlistedSlot k

/-- `TAB[k] <- e` (R10, R58). -/
def State.setSlot (k : Nat) (e : Slot) (s : State) : State := { s with tab := s.tab.write k e }

/-- `for k in 0 .. CAP-1: TAB[k] <- empty ; TCOUNT <- 0 ; TVALID <- 1` (42_mitm_table.md R121). In the
canonical form a table of empty slots lists nothing. -/
def State.clearTable (s : State) : State := { s with tab := [], tcount := 0, tvalid := true }

/-- `TCOUNT <- TCOUNT + 1` (42_mitm_table.md R125). -/
def State.countInsert (s : State) : State := { s with tcount := s.tcount + 1 }

/-- The home slot of a residue: `r mod CAP` (20_memory.md R59). -/
def State.homeSlot (s : State) (r : Nat) : Nat := r % s.cap

/-- Position `i` of the probe sequence of residue `r`: `(home(r) + i) mod CAP` (20_memory.md R59). -/
def State.probe (s : State) (r i : Nat) : Nat := (s.homeSlot r + i) % s.cap

/-- `while TAB[k].res != 0: k <- (k + 1) mod CAP`, within `fuel` probes (42_mitm_table.md R125, R128);
`none` where every probed slot is filled. -/
def State.findEmpty (s : State) : Nat → Nat → Option Nat
  | 0, _ => none
  | fuel + 1, k => if (s.slot k).res = 0 then some k else s.findEmpty fuel ((k + 1) % s.cap)

/-- TLKP's walk, within `fuel` probes (42_mitm_table.md R129, R131): the exponent at the first slot that
holds `r`, or `none` where an empty slot or the bound comes first. -/
def State.findResidue (s : State) (r : Word) : Nat → Nat → Option Word
  | 0, _ => none
  | fuel + 1, k =>
    if (s.slot k).res = 0 then none
    else if (s.slot k).res = r then some (s.slot k).exp
    else s.findResidue r fuel ((k + 1) % s.cap)

/-- The exponent TLKP finds for a residue, from its home slot and within CAP probes; residue 0 is never
present (42_mitm_table.md R129, R130, R131). -/
def State.lookup (s : State) (r : Word) : Option Word :=
  if r = 0 then none else s.findResidue r s.cap (s.homeSlot r.toNat)

/-! ## Errors: the block's only exceptions (60_exceptions.md R140 to R151) -/

/-- `raise Err(code)`: `OK <- 0 ; ERR <- code ; DONE <- 1 ; BUSY <- 0`, and nothing else
(60_exceptions.md R142). No state is saved and control goes nowhere (R149). -/
def State.raiseErr (c : ErrCode) (s : State) : State :=
  { s with ok := false, err := c.code, done := true, busy := false }

/-! ## The command word (10_state.md R38, R39) -/

/-- Accept: `LCMD <- v ; LA <- OPA ; LB <- OPB ; LN <- OPN ; DONE <- 0 ; OK <- 0 ; ERR <- 0 ; BUSY <- 1`
(R38). -/
def State.accept (v : Word) (s : State) : State :=
  { s with
    lcmd := v
    la := s.opa
    lb := s.opb
    ln := s.opn
    done := false
    ok := false
    err := 0
    busy := true }

/-- Drop: only `CMDOVR <- 1` (R39). -/
def State.dropCmd (s : State) : State := { s with cmdovr := true }

/-! ## Reset (70_reset_and_hazards.md R165, R166) -/

/-- Reset of the block, in one step: every register, flag and latch 0, CAPR kept, the engine idle, and the
table's contents unspecified anew. The host's side is not the block's and stays. -/
def State.resetBlock (s : State) : State :=
  { State.reset with capr := s.capr, resets := s.resets + 1, env := s.env }

end Sys2Proof.Machine
end

