-- ==== Sys2Proof/Machine/GcdUnit.lean ====
section
/-! DEFINITION. The GCD unit: GCD, XGCD and MODINV (40_gcd_unit.md R95 to R104). -/

namespace Sys2Proof.Machine

/-- The remainders and coefficients of the extended Euclidean loop; R95: mathematical integers. They are
not architectural (10_state.md R20): the type only names the loop's values. -/
structure EuclidRegs where
  r0 : Nat
  r1 : Nat
  s0 : Int
  s1 : Int
  t0 : Int
  t1 : Int
  deriving DecidableEq, Repr

/-- `(r0, r1) <- (x, y) ; (s0, s1) <- (1, 0) ; (t0, t1) <- (0, 1)` (40_gcd_unit.md R99). -/
def euclidStart (x y : Nat) : EuclidRegs :=
  { r0 := x, r1 := y, s0 := 1, s1 := 0, t0 := 0, t1 := 1 }

/-- The loop's body (R99). -/
def euclidStep (e : EuclidRegs) : EuclidRegs :=
  let q := e.r0 / e.r1
  { r0 := e.r1
    r1 := e.r0 - q * e.r1
    s0 := e.s1
    s1 := e.s0 - q * e.s1
    t0 := e.t1
    t1 := e.t0 - q * e.t1 }

/-- `while r1 != 0`, within `fuel` iterations (R99, 10_state.md R43). -/
def euclidLoop : Nat → EuclidRegs → EuclidRegs
  | 0, e => e
  | fuel + 1, e => if e.r1 = 0 then e else euclidLoop fuel (euclidStep e)

/-- The gcd and the pair of Bézout coefficients of two nonzero operands. -/
structure Bezout where
  g : Nat
  S : Int
  T : Int
  deriving DecidableEq, Repr

/-- XGCD's computation for nonzero operands: swapped exactly when `A < B`, and un-swapped on return
(R99, R100). -/
def xgcd (A B : Nat) : Bezout :=
  if A < B then
    let e := euclidLoop Config.euclidIterations (euclidStart B A)
    { g := e.r0, S := e.t0, T := e.s0 }
  else
    let e := euclidLoop Config.euclidIterations (euclidStart A B)
    { g := e.r0, S := e.s0, T := e.t0 }

/-- GCD (R96, R97): 0 with OK = 0 where an operand is 0, else the mathematical gcd with OK = 1. -/
def execGcd (s : State) : Host.Outcome State Fault Refusal :=
  if s.opndA = 0 ∨ s.opndB = 0 then .next ((s.setRes 0).finish false)
  else .next ((s.setRes (Nat.gcd s.opndA s.opndB)).finish true)

/-- XGCD (R99): RES, S and T all 0 with OK = 0 where an operand is 0. -/
def execXgcd (s : State) : Host.Outcome State Fault Refusal :=
  if s.opndA = 0 ∨ s.opndB = 0 then .next (((s.setRes 0).setBezout 0 0).finish false)
  else
    let b := xgcd s.opndA s.opndB
    .next (((s.setRes b.g).setBezout b.S b.T).finish true)

/-- MODINV (R103): `S' mod N` of XGCD's pair for (A, N), in `[0, N)`; S and T are not written. -/
def execModinv (s : State) : Host.Outcome State Fault Refusal :=
  if s.opndN ≤ 1 ∨ s.opndA % s.opndN = 0 ∨ Nat.gcd s.opndA s.opndN ≠ 1 then
    .next ((s.setRes 0).finish false)
  else .next ((s.setRes ((xgcd s.opndA s.opndN).S % (s.opndN : Int)).toNat).finish true)

end Sys2Proof.Machine
end

