-- ==== Sys2Proof/Machine/ModExp.lean ====
section
/-! DEFINITION. The modular exponentiation engine: MODPOW (41_modexp_engine.md R110 to R116). -/

namespace Sys2Proof.Machine

/-- `(x * y) mod n` through the 64-bit intermediate product (R110, 00_scope.md R5). -/
def mulMod (n x y : Nat) : Nat := (BitVec.ofNat 64 x * BitVec.ofNat 64 y).toNat % n

/-- Right-to-left square-and-multiply, `while k != 0` within `fuel` iterations (R111): `k[0]` is
`k % 2` and `k >> 1` is `k / 2`. -/
def powLoop (n : Nat) : Nat → Nat → Nat → Nat → Nat
  | 0, r, _, _ => r
  | fuel + 1, r, base, k =>
    if k = 0 then r
    else powLoop n fuel (if k % 2 = 1 then mulMod n r base else r) (mulMod n base base) (k / 2)

/-- The loop from its start: the accumulator at `1 mod n` and the base at `a mod n` (R111, R113). -/
def modpow (a e n : Nat) : Nat := powLoop n Config.powIterations (1 % n) (a % n) e

/-- MODPOW (R111): `n = 0` fails with RES = 0 (R114); a raw `a < 2` is returned unchanged (R112); else the
loop. -/
def execModpow (s : State) : Host.Outcome State Fault Refusal :=
  if s.opndN = 0 then .next ((s.setRes 0).finish false)
  else if s.opndA < 2 then .next ((s.setRes s.opndA).finish true)
  else .next ((s.setRes (modpow s.opndA s.opndB s.opndN)).finish true)

end Sys2Proof.Machine
end

