-- ==== Sys2Proof/Machine/Table.lean ====
section
/-! DEFINITION. The meet-in-the-middle table: TCLR, TINS and TLKP (42_mitm_table.md R120 to R136). -/

namespace Sys2Proof.Machine

/-- TCLR (R121): every slot empty, TCOUNT = 0, TVALID = 1, OK = 1. -/
def execTclr (s : State) : Host.Outcome State Fault Refusal := .next (s.clearTable.finish true)

/-- TINS (R125): the errors TABLE_UNINIT, RESIDUE_ZERO, TABLE_FULL in that order (60_exceptions.md R143);
else the entry goes to the first empty slot of the probe sequence, TCOUNT counts it, and RES is the slot
index. Where CAP probes find no empty slot although TCOUNT ≠ CAP, which no run reaches (R124, R128), the
spec's loop does not end and the machine stops. -/
def execTins (s : State) : Host.Outcome State Fault Refusal :=
  if s.tvalid = false then .next (s.raiseErr .tableUninit)
  else if s.la = 0 then .next (s.raiseErr .residueZero)
  else if s.tcount = s.capr then .next (s.raiseErr .tableFull)
  else
    match s.findEmpty s.cap (s.homeSlot s.opndA) with
    | none => .fault .probeEndless
    | some k =>
      .next ((((s.setSlot k { exp := s.lb, res := s.la }).countInsert).setRes k).finish true)

/-- TLKP (R129): TABLE_UNINIT; else the exponent of the first match with OK = 1, or 0 with OK = 0 where the
residue is absent (R130, R131). -/
def execTlkp (s : State) : Host.Outcome State Fault Refusal :=
  if s.tvalid = false then .next (s.raiseErr .tableUninit)
  else
    match s.lookup s.la with
    | none => .next ((s.setRes 0).finish false)
    | some x => .next ((s.setRes x.toNat).finish true)

end Sys2Proof.Machine
end

