-- ==== Sys2Proof/Machine/Dispatch.lean ====
section
/-! DEFINITION. The completion step of a decoded command, one arm per command (10_state.md R40,
30_encoding.md R81). -/

namespace Sys2Proof.Machine

def exec (i : Instr) (s : State) : Host.Outcome State Fault Refusal :=
  match i with
  | .gcd => Sys2Proof.Machine.execGcd s
  | .xgcd => Sys2Proof.Machine.execXgcd s
  | .modinv => Sys2Proof.Machine.execModinv s
  | .modpow => Sys2Proof.Machine.execModpow s
  | .tclr => Sys2Proof.Machine.execTclr s
  | .tins => Sys2Proof.Machine.execTins s
  | .tlkp => Sys2Proof.Machine.execTlkp s

end Sys2Proof.Machine
end

