-- ==== Sys2Proof/Machine/Window.lean ====
section
/-! DEFINITION. The host window: where it lies, which accesses it admits, what a read returns and what a
write does; and the host's own turn (10_state.md R22 to R39, 20_memory.md R50 to R56, 60_exceptions.md
R146, 30_encoding.md R86). -/

namespace Sys2Proof.Machine

/-- The offset of a register from `BASE` (10_state.md R22). -/
def BusReg.offset (r : BusReg) : Nat :=
  match r with
  | .cmd => 0x00
  | .status => 0x04
  | .opa => 0x08
  | .opb => 0x0C
  | .opn => 0x10
  | .res => 0x14
  | .sLo => 0x18
  | .sHi => 0x1C
  | .tLo => 0x20
  | .tHi => 0x24
  | .tcount => 0x28
  | .capr => 0x2C

/-- The register at an offset; the reserved words 0x30 to 0x3C have none (R22). -/
def busRegAt (off : Nat) : Option BusReg :=
  if off = 0x00 then some .cmd
  else if off = 0x04 then some .status
  else if off = 0x08 then some .opa
  else if off = 0x0C then some .opb
  else if off = 0x10 then some .opn
  else if off = 0x14 then some .res
  else if off = 0x18 then some .sLo
  else if off = 0x1C then some .sHi
  else if off = 0x20 then some .tLo
  else if off = 0x24 then some .tHi
  else if off = 0x28 then some .tcount
  else if off = 0x2C then some .capr
  else none

/-- The host address of an offset of the window (20_memory.md R51). -/
def windowAddress (off : Nat) : Nat := Config.base + off

/-- The offset a host address reaches, or `none` where it is not the window's
(20_memory.md R51, R62). -/
def windowOffset (addr : Nat) : Option Nat :=
  if Config.base ≤ addr ∧ addr < Config.base + Config.windowBytes then some (addr - Config.base)
  else none

/-- A host access is admitted only if it is a 32-bit access at a multiple of 4 from 0x00 to 0x3C
(20_memory.md R52). -/
def admitted (width : AccessWidth) (off : Nat) : Bool :=
  decide (width = .w32) && decide (off % 4 = 0) && decide (off ≤ 0x3C)

/-- What a read of a register returns (10_state.md R23, R26, R32, R34, R35). -/
def State.readReg (s : State) (r : BusReg) : Word :=
  match r with
  | .cmd => 0
  | .status => s.statusWord
  | .opa => s.opa
  | .opb => s.opb
  | .opn => s.opn
  | .res => s.res
  | .sLo => s.sLo
  | .sHi => s.sHi
  | .tLo => s.tLo
  | .tHi => s.tHi
  | .tcount => s.tcount
  | .capr => s.capr

/-- `BusRead(off)`: no side effect; a reserved word reads as 0 (20_memory.md R52, R53, R56). -/
def busRead (off : Nat) (s : State) : Word :=
  match busRegAt off with
  | some r => s.readReg r
  | none => 0

/-- The write effect of a register: CMD offers a command word, STATUS clears, OPA, OPB and OPN store, and
a write to a read-only register is ignored (10_state.md R23 to R39, 20_memory.md R53). -/
def State.writeReg (r : BusReg) (v : Word) (s : State) : State :=
  match r with
  | .cmd => if s.busy then s.dropCmd else s.accept v
  | .status => s.writeStatus v
  | .opa => { s with opa := v }
  | .opb => { s with opb := v }
  | .opn => { s with opn := v }
  | .res => s
  | .sLo => s
  | .sHi => s
  | .tLo => s
  | .tHi => s
  | .tcount => s
  | .capr => s

/-- `BusWrite(off, v)`: the write effect of the register there; a reserved word ignores it
(20_memory.md R52, R53). -/
def busWrite (off : Nat) (v : Word) (s : State) : State :=
  match busRegAt off with
  | some r => s.writeReg r v
  | none => s

/-! ## The host's side -/

/-- The host variable `t` that `WAIT` reads STATUS into (30_encoding.md R86), as variable 0. -/
def hostVarT : HostVar := 0

/-- The value of a host variable; one that nothing has set holds a free value. -/
def State.hostVar (s : State) (x : HostVar) : Int :=
  match Assoc.find s.env.vars x with
  | some w => w
  | none => Config.unsetHostVar x

/-- The u32 of an integer; a free value where it does not fit. -/
def hostWord (z : Int) : Word :=
  if 0 ≤ z ∧ z < 2 ^ 32 then BitVec.ofInt 32 z else Config.unfitHostValue z

/-- The value a bus write of the host carries. -/
def State.hostValue (s : State) (v : HostValue) : Word :=
  match v with
  | .lit w => w
  | .var x => hostWord (s.hostVar x)

/-- `x div y` of pseudocode: floor division for `y > 0` (00_scope.md R9). -/
def hostDiv (x y : Int) : Int := if 0 < y then x / y else Config.openQuotient x y

/-- `x mod y` of pseudocode: the non-negative remainder for `y > 0` (R9). -/
def hostMod (x y : Int) : Int := if 0 < y then x % y else Config.openRemainder x y

/-- `z[hi:lo]` of pseudocode: bits hi down to lo, inclusive, as an unsigned number (R8). OPEN: R8 states
neither the bits of a negative number nor a field with `hi < lo`; both are a free value (assumption log
entry 9). -/
def hostBits (z : Int) (hi lo : Nat) : Int :=
  if 0 ≤ z ∧ lo ≤ hi then z / 2 ^ lo % 2 ^ (hi + 1 - lo) else Config.openBits z hi lo

/-- The value of a host computation, on mathematical integers (R8, R9, 30_encoding.md R86). -/
def State.hostExpr (s : State) (e : HostExpr) : Int :=
  match e with
  | .lit n => n
  | .var x => s.hostVar x
  | .add a b => s.hostExpr a + s.hostExpr b
  | .sub a b => s.hostExpr a - s.hostExpr b
  | .mul a b => s.hostExpr a * s.hostExpr b
  | .div a b => hostDiv (s.hostExpr a) (s.hostExpr b)
  | .mod a b => hostMod (s.hostExpr a) (s.hostExpr b)
  | .bits a hi lo => hostBits (s.hostExpr a) hi lo

/-- Whether a condition of the host program holds (R86). -/
def State.hostCond (s : State) (c : HostCond) : Bool :=
  match c with
  | .always => true
  | .eq a b => decide (s.hostExpr a = s.hostExpr b)
  | .lt a b => decide (s.hostExpr a < s.hostExpr b)
  | .not c => !s.hostCond c
  | .and c d => s.hostCond c && s.hostCond d

/-- What is left of the host program from a label: nothing where no line has it (`assemble` refuses such a
program). -/
def State.hostLabel (s : State) (l : HostLabel) : List HostOp :=
  match Assoc.find s.env.labels l with
  | some ops => ops
  | none => []

/-- What is left of the host program. -/
def State.setProgram (ops : List HostOp) (s : State) : State :=
  { s with env := { s.env with program := ops } }

/-- What is left of the schedule. -/
def State.setSchedule (ts : List Turn) (s : State) : State :=
  { s with env := { s.env with schedule := ts } }

/-- Give a host variable a value. -/
def State.setHostVar (x : HostVar) (z : Int) (s : State) : State :=
  { s with env := { s.env with vars := Assoc.put s.env.vars x z } }

/-- Note an admitted bus transaction (30_encoding.md R88). -/
def State.record (t : BusTransaction) (s : State) : State :=
  { s with env := { s.env with trace := s.env.trace ++ [t] } }

/-- One host operation, with the rest of the host program. A refused access faults the run and changes
nothing (20_memory.md R52, 60_exceptions.md R146). `WAIT` reads STATUS into `t` and stays until BUSY = 0
(30_encoding.md R86). -/
def runHostOp (op : HostOp) (rest : List HostOp) (s : State) : Host.Outcome State Fault Refusal :=
  match op with
  | .read x width off =>
    if admitted width off then
      .next (((s.setProgram rest).setHostVar x (busRead off s).toNat).record
        { dir := .read, off := off, value := busRead off s })
    else .fault .busError
  | .write width off v =>
    if admitted width off then
      .next ((busWrite off (s.hostValue v) (s.setProgram rest)).record
        { dir := .write, off := off, value := s.hostValue v })
    else .fault .busError
  | .wait =>
    .next (((s.setProgram (if (busRead 0x04 s).getLsbD 0 then .wait :: rest else rest)).setHostVar
      hostVarT (busRead 0x04 s).toNat).record { dir := .read, off := 0x04, value := busRead 0x04 s })
  | .host x e => .next ((s.setProgram rest).setHostVar x (s.hostExpr e))
  | .goto c l => .next (s.setProgram (if s.hostCond c then s.hostLabel l else rest))

/-- The host's turn: its next operation in program order; nothing where its program has ended
(20_memory.md R64). -/
def hostTurn (s : State) : Host.Outcome State Fault Refusal :=
  match s.env.program with
  | [] => .next s
  | op :: rest => runHostOp op rest s

end Sys2Proof.Machine
end

