-- ==== Sys2Proof/Machine/Engine.lean ====
section
/-! DEFINITION. The engine's completion step and the turns of the machine's agents
(10_state.md R40, 00_scope.md R13, R14). -/

namespace Sys2Proof.Machine

/-- The completion step: decode LCMD and run it, or end in the decoder's error (R40, 30_encoding.md R81). -/
def completion (s : State) : Host.Outcome State Fault Refusal :=
  match decode s.lcmd with
  | .ok i => exec i s
  | .error e => .next (s.raiseErr (ErrCode.ofDecode e))

/-- The engine's turn: its only step is enabled exactly when BUSY = 1 (R27). -/
def engineTurn (s : State) : Host.Outcome State Fault Refusal :=
  if s.busy then completion s else .next s

/-- One agent's turn; reset is an event of the environment (R13). -/
def takeTurn (t : Turn) (s : State) : Host.Outcome State Fault Refusal :=
  match t with
  | .host => hostTurn s
  | .engine => engineTurn s
  | .reset => .next s.resetBlock

/-- Who moves once the environment's schedule is used up: the engine while it is busy, else the host. This
is the eager schedule of 95_test_vectors.md section 3, and it is fair to the engine (R14). -/
def State.eagerTurn (s : State) : Turn := if s.busy then .engine else .host

/-- Who moves next: as the environment's schedule says, and the eager turn where it says nothing. -/
def State.turn (s : State) : Turn :=
  match s.env.schedule with
  | [] => s.eagerTurn
  | t :: _ => t

/-- The state with the schedule's next turn taken off. -/
def State.popTurn (s : State) : State := s.setSchedule s.env.schedule.tail

/-- The state right before a command word is completed as the very next step: the word accepted (R38) and
the engine's turn put first. -/
def State.issue (v : Word) (s : State) : State :=
  (s.accept v).setSchedule (.engine :: s.env.schedule)

end Sys2Proof.Machine
end

