-- ==== Sys2Proof/Machine/Step.lean ====
section
/-! DEFINITION. One step of the machine: the turn of the agent that the schedule names
(00_scope.md R13, R14; 20_memory.md R64). -/

namespace Sys2Proof.Machine

/-- One step: the turn of the agent that moves next. -/
def step (s : State) : Host.Outcome State Fault Refusal := takeTurn s.turn s.popTurn

/-- `s` with the command word of a table row accepted, so that the very next step completes it (assumption
log entry 1). The block fetches no instructions (20_memory.md R68): a host write to CMD is what brings a
command in, and this is that write's effect (10_state.md R38). -/
def State.withFetchWord (s : State) (nbits w : Nat) : State := s.issue (tableWord nbits w)

end Sys2Proof.Machine
end

