-- ==== Sys2Proof/Machine/Assemble.lean ====
section
/-! DEFINITION. Assembly of HASM into host operations: each pseudo-instruction's expansion into bus
transactions, the labels, and the refusal of a number that does not fit in u32 (30_encoding.md R86 to R88). -/

namespace Sys2Proof.Machine

/-- The value of a well-formed operand. -/
def HasmArg.value (v : HasmArg) : HostValue :=
  match v with
  | .num n => .lit (BitVec.ofNat 32 n)
  | .var x => .var x

/-- `WR reg, value`: `BusWrite(offset(reg), value)` (R86). -/
def hasmWrite (r : BusReg) (v : HostValue) : HostOp := .write .w32 r.offset v

/-- `WR CMD, word ; WAIT`: how every command's pseudo-instruction ends (R87). -/
def hasmIssue (i : Instr) : List HostOp := [hasmWrite .cmd (.lit (encode i)), .wait]

/-- The bus transactions a statement stands for, in order (R86, R87). -/
def Hasm.expand (h : Hasm) : List HostOp :=
  match h with
  | .wr r v => [hasmWrite r v.value]
  | .rd x r => [.read x .w32 r.offset]
  | .wait => [.wait]
  | .host x e => [.host x e]
  | .goto c l => [.goto c l]
  | .label _ => []
  | .gcd a b => [hasmWrite .opa a.value, hasmWrite .opb b.value] ++ hasmIssue .gcd
  | .xgcd a b => [hasmWrite .opa a.value, hasmWrite .opb b.value] ++ hasmIssue .xgcd
  | .modinv a n => [hasmWrite .opa a.value, hasmWrite .opn n.value] ++ hasmIssue .modinv
  | .modpow a e n =>
    [hasmWrite .opa a.value, hasmWrite .opb e.value, hasmWrite .opn n.value] ++ hasmIssue .modpow
  | .tclr => hasmIssue .tclr
  | .tins r x => [hasmWrite .opa r.value, hasmWrite .opb x.value] ++ hasmIssue .tins
  | .tlkp r => [hasmWrite .opa r.value] ++ hasmIssue .tlkp
  | .clrdone => [hasmWrite .status (.lit 0x00000002#32)]
  | .clrovr => [hasmWrite .status (.lit 0x00000100#32)]

/-- The label a line is, if it is one (R86). -/
def Hasm.labelOf (h : Hasm) : Option HostLabel :=
  match h with
  | .label l => some l
  | .wr _ _ => none
  | .rd _ _ => none
  | .wait => none
  | .host _ _ => none
  | .goto _ _ => none
  | .gcd _ _ => none
  | .xgcd _ _ => none
  | .modinv _ _ => none
  | .modpow _ _ _ => none
  | .tclr => none
  | .tins _ _ => none
  | .tlkp _ => none
  | .clrdone => none
  | .clrovr => none

/-- The label a line goes to, if it is a `goto` (R86). -/
def Hasm.target (h : Hasm) : Option HostLabel :=
  match h with
  | .goto _ l => some l
  | .label _ => none
  | .wr _ _ => none
  | .rd _ _ => none
  | .wait => none
  | .host _ _ => none
  | .gcd _ _ => none
  | .xgcd _ _ => none
  | .modinv _ _ => none
  | .modpow _ _ _ => none
  | .tclr => none
  | .tins _ _ => none
  | .tlkp _ => none
  | .clrdone => none
  | .clrovr => none

/-- An assembled host program: its operations, and what is left of them from each label. -/
structure HostCode where
  ops : List HostOp
  labels : List (HostLabel × List HostOp)
  deriving DecidableEq, Repr

/-- Each label of a program, with the operations of the lines after it (R86). -/
def hasmLabels (p : List Hasm) : List (HostLabel × List HostOp) :=
  match p with
  | [] => []
  | h :: rest =>
    match h.labelOf with
    | some l => (l, rest.flatMap Hasm.expand) :: hasmLabels rest
    | none => hasmLabels rest

/-- Every label names one line, and every `goto` goes to a label of the program. -/
def hasmLinked (p : List Hasm) : Bool :=
  decide ((p.filterMap Hasm.labelOf).Nodup) &&
    (p.filterMap Hasm.target).all (fun l => decide (l ∈ p.filterMap Hasm.labelOf))

/-- A HASM program's host operations; `none` where a line is refused, or where a label is missing or
named twice (R86, R88). -/
def assemble (p : List Hasm) : Option HostCode :=
  if p.all Hasm.wellFormed && hasmLinked p then
    some { ops := p.flatMap Hasm.expand, labels := hasmLabels p }
  else none

/-- Give the host an assembled program. -/
def State.loadHost (c : HostCode) (s : State) : State :=
  { s with env := { s.env with program := c.ops, labels := c.labels } }

end Sys2Proof.Machine
end

