-- ==== Sys2Proof/Safety.lean ====
section
/-! DEFINITION. What counts as a good state and a well-behaved host, in the terms the statements use. -/

namespace Sys2Proof.Machine

/-! ## The invariant of every reachable state -/

/-- STATUS is one the spec allows: while BUSY, DONE, OK and ERR are 0 (10_state.md R38); an error has
OK = 0, and no code above 5 is ever produced (60_exceptions.md R140, R141). -/
abbrev StatusInv (s : State) : Prop :=
  (s.busy = true → s.done = false ∧ s.ok = false ∧ s.err = 0) ∧
  (s.err ≠ 0 → s.ok = false) ∧
  s.err.toNat ≤ 5

/-- The table is one the spec allows: the capacity is at least 32 (00_scope.md R6); the table memory is in
its canonical form, inside the capacity, and lists filled slots only (20_memory.md R58); TCOUNT counts
them while TVALID = 1 (10_state.md R35); and nothing is known of the table while TVALID = 0 (R33, R44). -/
abbrev TableInv (s : State) : Prop :=
  Config.minCapacity ≤ s.cap ∧
  Memory.wf s.tab = true ∧
  (∀ p ∈ s.tab, p.1 < s.cap ∧ p.2.res ≠ 0) ∧
  (s.tvalid = true → s.tcount.toNat = s.tab.length) ∧
  (s.tvalid = false → s.tab = [] ∧ s.tcount = 0)

/-- The invariant. -/
abbrev Invariant (s : State) : Prop := StatusInv s ∧ TableInv s

/-- The number of slots `k < CAP` with `TAB[k].res ≠ 0` (10_state.md R35). -/
def State.filledSlots (s : State) : Nat :=
  ((List.range s.cap).filter (fun k => decide ((s.slot k).res ≠ 0))).length

/-! ## Comparing states -/

/-- Apply a change of state to the next state of an outcome; faults and refusals stay. -/
def mapNext (f : State → State) (o : Host.Outcome State Fault Refusal) :
    Host.Outcome State Fault Refusal :=
  match o with
  | .next t => .next (f t)
  | .fault r => .fault r
  | .refused r => .refused r

/-- The results a completed command leaves (20_memory.md R65): RES, S, T, TCOUNT, OK and ERR. -/
abbrev SameResults (s t : State) : Prop :=
  t.res = s.res ∧ t.sLo = s.sLo ∧ t.sHi = s.sHi ∧ t.tLo = s.tLo ∧ t.tHi = s.tHi ∧
  t.tcount = s.tcount ∧ t.ok = s.ok ∧ t.err = s.err

/-- The step completes a TCLR: the engine moves, is busy, and TCLR is latched. -/
abbrev CompletesTclr (s : State) : Prop :=
  s.turn = .engine ∧ s.busy = true ∧ decode s.lcmd = .ok .tclr

/-! ## A well-behaved host -/

/-- The window admits the operation's access, if it makes one (20_memory.md R52). -/
def HostOp.admissible (op : HostOp) : Bool :=
  match op with
  | .read _ width off => admitted width off
  | .write width off _ => admitted width off
  | .wait => true
  | .host _ _ => true
  | .goto _ _ => true

/-- Every access left in the host program is admitted (70_reset_and_hazards.md R168). -/
abbrev ProgramAdmitted (s : State) : Prop :=
  (∀ op ∈ s.env.program, op.admissible = true) ∧
  (∀ p ∈ s.env.labels, ∀ op ∈ p.2, op.admissible = true)

/-- Every write to CMD comes while the engine is surely idle: a `WAIT` stands between it and the command
write before it, and before the first one where the engine may be busy at the start
(70_reset_and_hazards.md R169). -/
def paced (mayBeBusy : Bool) (ops : List HostOp) : Bool :=
  match ops with
  | [] => true
  | .write _ off _ :: rest =>
    if off = 0x00 then !mayBeBusy && paced true rest else paced mayBeBusy rest
  | .wait :: rest => paced false rest
  | .read _ _ _ :: rest => paced mayBeBusy rest
  | .host _ _ :: rest => paced mayBeBusy rest
  | .goto _ _ :: rest => !mayBeBusy && paced mayBeBusy rest

/-- The host program and what is left of it from each label are paced. A `goto` of a paced program comes
while the engine is surely idle. -/
abbrev PacedHost (s : State) : Prop :=
  paced s.busy s.env.program = true ∧ ∀ p ∈ s.env.labels, paced false p.2 = true

/-- The statement writes CMD itself, outside a pseudo-instruction (30_encoding.md R86, R87). -/
def Hasm.rawCommand (h : Hasm) : Bool :=
  match h with
  | .wr r _ => decide (r = .cmd)
  | .rd _ _ => false
  | .wait => false
  | .host _ _ => false
  | .goto _ _ => false
  | .label _ => false
  | .gcd _ _ => false
  | .xgcd _ _ => false
  | .modinv _ _ => false
  | .modpow _ _ _ => false
  | .tclr => false
  | .tins _ _ => false
  | .tlkp _ => false
  | .clrdone => false
  | .clrovr => false

end Sys2Proof.Machine
end

