-- ==== Sys2Proof/Certificates/Slice0/Obligations.lean ====
section
/-! DEFINITION. The statements for the provers. Each docstring says which rule of spec/ it formalises. A next
state written as a whole record update says the frame as well: every field not named is unchanged. -/

open Sys2Proof Sys2Proof.Machine

/-! ## Decoding -/

/-- R79: a word is command X exactly when its OPCODE is X's and its RSVD bits are 0, which is exactly
when the whole word is X's match value; so decode and encode agree. -/
def Obligations.DecodeEncodeAgree : Prop :=
  (∀ i : Instr, i.wellFormed = true → decode (encode i) = .ok i) ∧
  (∀ (w : Word) (i : Instr), decode w = .ok i ↔ opcodeField w = opcodeOf i ∧ reservedField w = 0) ∧
  (∀ (w : Word) (i : Instr), decode w = .ok i ↔ w &&& 0xFFFFFFFF#32 = encode i) ∧
  (∀ i : Instr, encode i = (opcodeOf i).setWidth 32)

/-- R84: every word is one of the seven commands, an ILLEGAL_OPCODE word or a RESERVED_BITS word, and no
two of these. -/
def Obligations.EveryWordIsCommandOrErrorWord : Prop :=
  ∀ w : Word,
    (decode w = .error .illegalOpcode ↔ ∀ i, opcodeField w ≠ opcodeOf i) ∧
    (decode w = .error .reservedBits ↔ (∃ i, opcodeField w = opcodeOf i) ∧ reservedField w ≠ 0) ∧
    ((∃ i, decode w = .ok i) ↔ ∃ i, w = encode i)

/-- R78: the opcode map, as command words written out. -/
def Obligations.OpcodeMapWords : Prop :=
  decode 0x00000001#32 = .ok .gcd ∧ decode 0x00000002#32 = .ok .xgcd ∧
  decode 0x00000003#32 = .ok .modinv ∧ decode 0x00000004#32 = .ok .modpow ∧
  decode 0x00000010#32 = .ok .tclr ∧ decode 0x00000011#32 = .ok .tins ∧
  decode 0x00000012#32 = .ok .tlkp ∧ decode 0x00000000#32 = .error .illegalOpcode ∧
  decode 0x00000104#32 = .error .reservedBits ∧ decode 0xFFFFFFFF#32 = .error .illegalOpcode

/-- 20_memory.md R54's byte order: byte `k` of the host's addressing is bits `[8k+7 : 8k]`, so four bytes
make one word and a word's bytes give it back. -/
def Obligations.ByteOrderRoundTrip : Prop :=
  (∀ w : Word, wordOfBytes (bytesOfWord w) = some w) ∧
  (∀ (b0 b1 b2 b3 : Byte) (w : Word), wordOfBytes [b0, b1, b2, b3] = some w →
    w.extractLsb' 0 8 = b0 ∧ w.extractLsb' 8 8 = b1 ∧ w.extractLsb' 16 8 = b2 ∧
    w.extractLsb' 24 8 = b3)

/-! ## Reset -/

/-- R44: the state after reset. The table's contents are the model's free value, whatever it is. -/
def Obligations.ResetStateValues : Prop :=
  busRead 0x04 State.reset = 0 ∧
  State.reset.opa = 0 ∧ State.reset.opb = 0 ∧ State.reset.opn = 0 ∧
  State.reset.res = 0 ∧ State.reset.sLo = 0 ∧ State.reset.sHi = 0 ∧ State.reset.tLo = 0 ∧
  State.reset.tHi = 0 ∧ State.reset.tcount = 0 ∧ busRead 0x2C State.reset = 0x0002001D#32 ∧
  State.reset.lcmd = 0 ∧ State.reset.la = 0 ∧ State.reset.lb = 0 ∧ State.reset.ln = 0 ∧
  State.reset.busy = false ∧ State.reset.tvalid = false ∧
  ∀ k, State.reset.slot k = Slot.ofBits (Config.unspecifiedSlot State.reset.resets k)

/-- R165: reset sets every piece of state to the value after reset, in one step, from every state; CAPR is
a constant, the host's side is not the block's, and the table is unspecified anew. -/
def Obligations.ResetEventRestoresResetState : Prop :=
  ∀ s : State, s.turn = .reset →
    ∃ t, step s = .next t ∧
      t = { State.reset with capr := s.capr, resets := s.resets + 1, env := s.popTurn.env } ∧
      ∀ k, t.slot k = Slot.ofBits (Config.unspecifiedSlot (s.resets + 1) k)

/-- The invariant holds right after reset. -/
def Obligations.ResetMeetsInvariant : Prop := Invariant State.reset

/-- Every step keeps the invariant: the legal STATUS, the canonical table memory inside the capacity, and
the count of filled slots. -/
def Obligations.StepKeepsInvariant : Prop :=
  ∀ s t : State, Invariant s → step s = .next t → Invariant t

/-! ## One step -/

/-- A step runs the decoded command: where the engine moves and is busy, the step is the latched command's
meaning, the schedule's turn taken off; and so it is for a table row's word put in by `withFetchWord`,
which stands for the accept of R38. -/
def Obligations.StepRunsLatchedCommand : Prop :=
  (∀ (s : State) (i : Instr), i.wellFormed = true → s.turn = .engine → s.busy = true →
    decode s.lcmd = .ok i → step s = exec i s.popTurn) ∧
  (∀ (s : State) (i : Instr),
    step (s.withFetchWord 32 (encode i).toNat) = exec i (s.accept (encode i)))

/-- R27: the engine's step is enabled exactly when BUSY = 1: its turn with BUSY = 0 changes nothing. -/
def Obligations.EngineIdleWhenNotBusy : Prop :=
  ∀ s : State, s.turn = .engine → s.busy = false → step s = .next s.popTurn

/-- R82, R83: a word with an illegal opcode completes with ERR = 1, one with a legal opcode and reserved bits
set with ERR = 2; both with OK = 0, accepted like any other and changing nothing but STATUS. -/
def Obligations.IllegalWordsCompleteWithError : Prop :=
  (∀ (s : State) (w : Word), s.busy = false → (busWrite 0x00 w s).lcmd = w ∧
    (busWrite 0x00 w s).busy = true) ∧
  (∀ s : State, s.turn = .engine → s.busy = true →
    (let op := (s.lcmd.extractLsb' 0 8).toNat
     op = 0x00 ∨ (0x05 ≤ op ∧ op ≤ 0x0F) ∨ 0x13 ≤ op) →
    step s = .next { s.popTurn with ok := false, err := 1#4, done := true, busy := false }) ∧
  (∀ s : State, s.turn = .engine → s.busy = true →
    (let op := (s.lcmd.extractLsb' 0 8).toNat
     op = 0x01 ∨ op = 0x02 ∨ op = 0x03 ∨ op = 0x04 ∨ op = 0x10 ∨ op = 0x11 ∨ op = 0x12) →
    s.lcmd.extractLsb' 8 24 ≠ 0 →
    step s = .next { s.popTurn with ok := false, err := 2#4, done := true, busy := false })

/-- R43, R166: a command in progress ends. From every state with a command in progress and a host whose accesses
are admitted, the engine is idle again within one step more than the schedule's turns: the command has
completed, or a reset of the schedule has abandoned it. That the model lets the engine move once the schedule is
used up is its choice (assumption log entry 4). -/
def Obligations.CommandInProgressEnds : Prop :=
  ∀ s : State, Invariant s → ProgramAdmitted s → s.busy = true →
    ∃ n ≤ s.env.schedule.length + 1, ∃ t,
      Host.Core.run Sys2Proof.core n s = .next t ∧ State.busy t = false

/-- R15, R85, R146: from a state a run can reach, a step never refuses, and it faults only with a bus error,
where the host moves and its next access is not admitted. -/
def Obligations.OnlyRefusedAccessFaults : Prop :=
  ∀ s : State, Invariant s →
    (∀ r, step s ≠ .refused r) ∧
    (∀ r, step s = .fault r → r = .busError ∧ s.turn = .host ∧
      ∃ op rest, s.env.program = op :: rest ∧ op.admissible = false)

/-! ## The host window -/

/-- R38: accept. -/
def Obligations.IdleCommandWriteIsAccepted : Prop :=
  ∀ (s : State) (v : Word), s.busy = false →
    busWrite 0x00 v s =
      { s with lcmd := v, la := s.opa, lb := s.opb, ln := s.opn,
               done := false, ok := false, err := 0, busy := true }

/-- R39: drop. -/
def Obligations.BusyCommandWriteIsDropped : Prop :=
  ∀ (s : State) (v : Word), s.busy = true → busWrite 0x00 v s = { s with cmdovr := true }

/-- R25: a STATUS write clears DONE where bit 1 is 1 and CMDOVR where bit 8 is 1, ignores every other bit, and
changes nothing else; with BUSY = 1 writing 1 to bit 1 alone has no effect. -/
def Obligations.StatusWriteClears : Prop :=
  (∀ (s : State) (v : Word),
    busRead 0x04 (busWrite 0x04 v s) = busRead 0x04 s &&& ~~~(v &&& 0x00000102#32) ∧
    ∃ d c, busWrite 0x04 v s = { s with done := d, cmdovr := c }) ∧
  (∀ s : State, Invariant s → s.busy = true → busWrite 0x04 0x00000002#32 s = s)

/-- R24, R26: the layout a read of STATUS returns. -/
def Obligations.StatusReadLayout : Prop :=
  ∀ s : State,
    (busRead 0x04 s).getLsbD 0 = s.busy ∧ (busRead 0x04 s).getLsbD 1 = s.done ∧
    (busRead 0x04 s).getLsbD 2 = s.ok ∧ (busRead 0x04 s).getLsbD 3 = false ∧
    (busRead 0x04 s).extractLsb' 4 4 = s.err ∧ (busRead 0x04 s).getLsbD 8 = s.cmdovr ∧
    (busRead 0x04 s).getLsbD 9 = s.tvalid ∧ (busRead 0x04 s).extractLsb' 10 22 = 0

/-- R32: OPA, OPB and OPN are read-write in every phase: a read returns the value last written, and a write
changes nothing else, the latches among it. -/
def Obligations.OperandRegistersReadBack : Prop :=
  ∀ (s : State) (v : Word),
    busWrite 0x08 v s = { s with opa := v } ∧ busRead 0x08 (busWrite 0x08 v s) = v ∧
    busWrite 0x0C v s = { s with opb := v } ∧ busRead 0x0C (busWrite 0x0C v s) = v ∧
    busWrite 0x10 v s = { s with opn := v } ∧ busRead 0x10 (busWrite 0x10 v s) = v

/-- R53: reserved offsets read as 0 and ignore writes; writes to read-only registers are ignored. -/
def Obligations.ReadOnlyAndReservedIgnoreWrites : Prop :=
  ∀ (s : State) (v : Word),
    (∀ off ∈ [0x30, 0x34, 0x38, 0x3C], busRead off s = 0 ∧ busWrite off v s = s) ∧
    (∀ off ∈ [0x14, 0x18, 0x1C, 0x20, 0x24, 0x28, 0x2C], busWrite off v s = s)

/-- R22, R23: the register map, as what a read of each offset returns. -/
def Obligations.RegisterMapReads : Prop :=
  ∀ s : State,
    busRead 0x00 s = 0 ∧ busRead 0x08 s = s.opa ∧ busRead 0x0C s = s.opb ∧ busRead 0x10 s = s.opn ∧
    busRead 0x14 s = s.res ∧ busRead 0x18 s = s.sLo ∧ busRead 0x1C s = s.sHi ∧
    busRead 0x20 s = s.tLo ∧ busRead 0x24 s = s.tHi ∧ busRead 0x28 s = s.tcount ∧
    busRead 0x2C s = s.capr

/-- R56, R86: the host's read changes nothing of the block, and leaves what the window returned in its
variable; the variables read before keep their values. -/
def Obligations.HostReadHasNoSideEffect : Prop :=
  ∀ (s : State) (x : HostVar) (width : AccessWidth) (off : Nat) (rest : List HostOp),
    s.turn = .host → s.env.program = .read x width off :: rest → admitted width off = true →
    ∃ t, step s = .next t ∧ t = { s with env := t.env } ∧ t.env.program = rest ∧
      t.env.labels = s.env.labels ∧ t.hostVar x = ((busRead off s).toNat : Int) ∧
      (∀ y, y ≠ x → t.hostVar y = s.hostVar y) ∧
      t.env.trace = s.env.trace ++ [{ dir := .read, off := off, value := busRead off s }]

/-- R52, R86: the host's write applies the window's write effect and nothing else. -/
def Obligations.HostWriteTakesEffect : Prop :=
  ∀ (s : State) (width : AccessWidth) (off : Nat) (v : HostValue) (rest : List HostOp),
    s.turn = .host → s.env.program = .write width off v :: rest → admitted width off = true →
    ∃ t, step s = .next t ∧ t = { busWrite off (s.hostValue v) s with env := t.env } ∧
      t.env.program = rest ∧ t.env.labels = s.env.labels ∧ t.env.vars = s.env.vars ∧
      t.env.trace = s.env.trace ++ [{ dir := .write, off := off, value := s.hostValue v }]

/-- R86: `WAIT` reads STATUS into `t` and goes on exactly when the read shows BUSY = 0; a host computation
leaves its value in its variable, and a `goto` goes to its label exactly when its condition holds, neither with
a bus access. None of them changes the block. -/
def Obligations.WaitAndHostStatements : Prop :=
  (∀ (s : State) (rest : List HostOp), s.turn = .host → s.env.program = .wait :: rest →
    ∃ t, step s = .next t ∧ t = { s with env := t.env } ∧
      t.hostVar hostVarT = ((busRead 0x04 s).toNat : Int) ∧
      (s.busy = true → t.env.program = .wait :: rest) ∧ (s.busy = false → t.env.program = rest)) ∧
  (∀ (s : State) (x : HostVar) (e : HostExpr) (rest : List HostOp), s.turn = .host →
    s.env.program = .host x e :: rest →
    ∃ t, step s = .next t ∧ t = { s with env := t.env } ∧ t.env.trace = s.env.trace ∧
      t.env.program = rest ∧ t.hostVar x = s.hostExpr e ∧ ∀ y, y ≠ x → t.hostVar y = s.hostVar y) ∧
  (∀ (s : State) (c : HostCond) (l : HostLabel) (rest : List HostOp), s.turn = .host →
    s.env.program = .goto c l :: rest →
    ∃ t, step s = .next t ∧ t = { s with env := t.env } ∧ t.env.trace = s.env.trace ∧
      t.env.vars = s.env.vars ∧ (s.hostCond c = true → t.env.program = s.hostLabel l) ∧
      (s.hostCond c = false → t.env.program = rest))

/-- R52, R146: an access is admitted only if it is a 32-bit access at a multiple of 4 from 0x00 to 0x3C; any
other access of the host is a bus error. -/
def Obligations.RefusedAccessIsBusError : Prop :=
  (∀ (width : AccessWidth) (off : Nat),
    admitted width off = true ↔ width = .w32 ∧ off % 4 = 0 ∧ off ≤ 0x3C) ∧
  (∀ (s : State) (op : HostOp) (rest : List HostOp), s.turn = .host → s.env.program = op :: rest →
    op.admissible = false → step s = .fault .busError)

/-- R51: the window lies from BASE to BASE + 0x3F, BASE a multiple of 64, and each address of it reaches one
offset. -/
def Obligations.WindowAddresses : Prop :=
  Config.base % 64 = 0 ∧
  (∀ off, off ≤ 0x3F → windowOffset (windowAddress off) = some off) ∧
  (∀ addr off, windowOffset addr = some off → addr = Config.base + off ∧ off ≤ 0x3F)

/-- R31: a CMD write that arrives while BUSY = 1 sets CMDOVR, an accepted one leaves it, a STATUS write with
bit 8 set and a reset clear it, and nothing else clears it. -/
def Obligations.CmdovrIsSticky : Prop :=
  (∀ (s : State) (v : Word), s.busy = true → (busWrite 0x00 v s).cmdovr = true) ∧
  (∀ (s : State) (v : Word), s.busy = false → (busWrite 0x00 v s).cmdovr = s.cmdovr) ∧
  (∀ (s : State) (v : Word), v.getLsbD 8 = true → (busWrite 0x04 v s).cmdovr = false) ∧
  (∀ s : State, s.turn = .reset → ∃ t, step s = .next t ∧ t.cmdovr = false) ∧
  (∀ s t : State, s.cmdovr = true → step s = .next t → t.cmdovr = false →
    s.turn = .reset ∨
    (s.turn = .host ∧ ∃ width v rest, s.env.program = .write width 0x04 v :: rest ∧
      (s.hostValue v).getLsbD 8 = true))

/-- R35, R165: CAPR is a constant, over every step and a reset too. -/
def Obligations.CaprIsConstant : Prop :=
  ∀ s t : State, step s = .next t → t.capr = s.capr

/-- R65, R170: after a completed command, a step of the host in which no command is accepted leaves every
result as it is: RES, S, T, TCOUNT, OK and ERR. -/
def Obligations.ResultsStayUntilNextAccept : Prop :=
  ∀ s t : State, s.turn = .host → step s = .next t → (s.busy = true ∨ t.busy = false) →
    SameResults s t

/-- R169, R88: a host whose command writes all come through pseudo-instructions is paced, branches included. -/
def Obligations.PseudoInstructionProgramsArePaced : Prop :=
  ∀ (p : List Hasm) (c : HostCode) (s : State), (∀ h ∈ p, h.rawCommand = false) →
    assemble p = some c → s.busy = false → PacedHost (s.loadHost c)

/-- R88: no command of a paced program is ever dropped: from an idle engine or a busy one, every step keeps
the host paced, branches included, and CMDOVR, once 0, stays 0. -/
def Obligations.PacedProgramNeverOverruns : Prop :=
  ∀ s t : State, PacedHost s → s.cmdovr = false → step s = .next t →
    PacedHost t ∧ t.cmdovr = false

/-- R86: a HASM line with a number that does not fit in u32 is refused, and a program whose labels are in
order is refused for no other reason; that a missing label or one named twice is refused as well is the
model's choice (assumption log entry 9). -/
def Obligations.AssembleRefusesWideNumbers : Prop :=
  (∀ (r : BusReg) (n : Nat), assemble [.wr r (.num n)] =
    if n < 2 ^ 32 then
      some { ops := [.write .w32 r.offset (.lit (BitVec.ofNat 32 n))], labels := [] }
    else none) ∧
  (∀ p : List Hasm, (∃ c, assemble p = some c) ↔ (∀ h ∈ p, h.wellFormed = true) ∧
    (p.filterMap Hasm.labelOf).Nodup ∧
    ∀ l ∈ p.filterMap Hasm.target, l ∈ p.filterMap Hasm.labelOf)

/-! ## What completing a command leaves alone -/

/-- R32, R34, R37, R142: the completion of a command never writes the operand registers, the latches, CMDOVR
or CAPR; it ends with DONE = 1 and BUSY = 0; it writes S and T only for XGCD, the table and TCOUNT only for
TCLR and TINS, TVALID only for TCLR, and RES for every command but TCLR; and where it ends in an error it
writes nothing but STATUS. -/
def Obligations.CompletionFrame : Prop :=
  ∀ (i : Instr) (s t : State), exec i s = .next t →
    (t.opa = s.opa ∧ t.opb = s.opb ∧ t.opn = s.opn ∧ t.lcmd = s.lcmd ∧ t.la = s.la ∧ t.lb = s.lb ∧
      t.ln = s.ln ∧ t.cmdovr = s.cmdovr ∧ t.capr = s.capr ∧ t.resets = s.resets ∧ t.env = s.env) ∧
    (t.done = true ∧ t.busy = false) ∧
    (i ≠ .xgcd → t.sLo = s.sLo ∧ t.sHi = s.sHi ∧ t.tLo = s.tLo ∧ t.tHi = s.tHi) ∧
    (i ≠ .tclr → i ≠ .tins → t.tcount = s.tcount ∧ ∀ k, t.slot k = s.slot k) ∧
    (i ≠ .tclr → t.tvalid = s.tvalid) ∧
    (i = .tclr → t.res = s.res) ∧
    (t.err ≠ 0 → (i = .tins ∨ i = .tlkp) ∧
      t = { s with ok := false, err := t.err, done := true, busy := false })

/-- R32, R37, R171: what a command does never depends on OPA, OPB and OPN after it was accepted: host writes
to them before its completion and after it give the same state. -/
def Obligations.OperandWritesCommuteWithCompletion : Prop :=
  ∀ (i : Instr) (s : State) (a b n : Word),
    exec i { s with opa := a, opb := b, opn := n } =
      mapNext (fun t => { t with opa := a, opb := b, opn := n }) (exec i s)

/-- R76, with the table of R32: a command that does not use an operand ignores its value. -/
def Obligations.UnusedOperandsIgnored : Prop :=
  ∀ (i : Instr) (s : State) (v : Word),
    ((operandUse i).a = false →
      exec i { s with la := v } = mapNext (fun t => { t with la := v }) (exec i s)) ∧
    ((operandUse i).b = false →
      exec i { s with lb := v } = mapNext (fun t => { t with lb := v }) (exec i s)) ∧
    ((operandUse i).n = false →
      exec i { s with ln := v } = mapNext (fun t => { t with ln := v }) (exec i s))

/-- R16, R122: no command's effect depends on the unspecified contents of the table after a reset: another
reset count, hence any other free contents, gives the same outcome. -/
def Obligations.UnspecifiedTableUnobservable : Prop :=
  ∀ (i : Instr) (s : State) (era : Nat),
    exec i { s with resets := era } = mapNext (fun t => { t with resets := era }) (exec i s)

/-! ## The GCD unit -/

/-- R97: GCD with a zero operand returns 0, not the other operand, with OK = 0. -/
def Obligations.GcdZeroOperand : Prop :=
  ∀ s : State, s.la = 0 ∨ s.lb = 0 →
    exec .gcd s = .next { s with res := 0, ok := false, err := 0, done := true, busy := false }

/-- R98: for nonzero operands RES is their greatest common divisor, with OK = 1; nothing but RES and STATUS
changes, every slot reads as before, and the order of the operands does not matter. -/
def Obligations.GcdGreatestCommonDivisor : Prop :=
  ∀ s : State, s.la ≠ 0 → s.lb ≠ 0 →
    ∃ t, exec .gcd s = .next t ∧
      t = { s with res := t.res, ok := true, err := 0, done := true, busy := false } ∧
      t.res.toNat ∣ s.la.toNat ∧ t.res.toNat ∣ s.lb.toNat ∧
      (∀ d, d ∣ s.la.toNat → d ∣ s.lb.toNat → d ∣ t.res.toNat) ∧ 1 ≤ t.res.toNat ∧
      (∀ k, t.slot k = s.slot k) ∧
      ∃ u, exec .gcd { s with la := s.lb, lb := s.la } = .next u ∧ u.res = t.res

/-- R99: XGCD with a zero operand: RES, S and T all 0, OK = 0. -/
def Obligations.XgcdZeroOperand : Prop :=
  ∀ s : State, s.la = 0 ∨ s.lb = 0 →
    exec .xgcd s = .next { s with res := 0, sLo := 0, sHi := 0, tLo := 0, tHi := 0, ok := false,
                                  err := 0, done := true, busy := false }

/-- R102: every result of XGCD with OK = 1 has `A·S + B·T = RES`, exactly, with S and T read as s64. For nonzero
operands there is such a result, RES is the greatest common divisor, and nothing but RES, S, T and STATUS
changes. -/
def Obligations.XgcdBezoutIdentity : Prop :=
  (∀ s t : State, exec .xgcd s = .next t → t.ok = true →
    (s.la.toNat : Int) * t.bezoutS + (s.lb.toNat : Int) * t.bezoutT = (t.res.toNat : Int)) ∧
  (∀ s : State, s.la ≠ 0 → s.lb ≠ 0 →
    ∃ t, exec .xgcd s = .next t ∧
      t = { s with res := t.res, sLo := t.sLo, sHi := t.sHi, tLo := t.tLo, tHi := t.tHi,
                   ok := true, err := 0, done := true, busy := false } ∧
      t.res.toNat = Nat.gcd s.la.toNat s.lb.toNat ∧
      ∀ k, t.slot k = s.slot k)

/-- R101: `|S| ≤ B / RES` and `|T| ≤ A / RES`; so S_HI and T_HI are all zeros or all ones. -/
def Obligations.XgcdCoefficientRange : Prop :=
  ∀ s : State, s.la ≠ 0 → s.lb ≠ 0 →
    ∃ t, exec .xgcd s = .next t ∧
      t.bezoutS.natAbs ≤ s.lb.toNat / t.res.toNat ∧ t.bezoutT.natAbs ≤ s.la.toNat / t.res.toNat ∧
      (t.sHi = 0 ∨ t.sHi = 0xFFFFFFFF#32) ∧ (t.tHi = 0 ∨ t.tHi = 0xFFFFFFFF#32)

/-- R100: the operands are swapped exactly when `A < B` and the coefficients un-swapped: exchanging two
different operands exchanges S and T, and XGCD(A, A) returns (S, T) = (0, 1). -/
def Obligations.XgcdSwapRule : Prop :=
  (∀ s : State, s.la ≠ s.lb → s.la ≠ 0 → s.lb ≠ 0 →
    ∃ t u, exec .xgcd s = .next t ∧ exec .xgcd { s with la := s.lb, lb := s.la } = .next u ∧
      u.res = t.res ∧ u.sLo = t.tLo ∧ u.sHi = t.tHi ∧ u.tLo = t.sLo ∧ u.tHi = t.sHi) ∧
  (∀ s : State, s.la = s.lb → s.la ≠ 0 →
    exec .xgcd s = .next { s with res := s.la, sLo := 0, sHi := 0, tLo := 1, tHi := 0, ok := true,
                                  err := 0, done := true, busy := false })

/-- R177: the Euclidean loop ends within 45 division steps for u32 operands, so the model's bound is never
what ends it. -/
def Obligations.EuclidEndsWithin45Steps : Prop :=
  ∀ x y : Nat, y ≤ x → x < 2 ^ 32 →
    (euclidLoop 45 (euclidStart x y)).r1 = 0 ∧
    euclidLoop Config.euclidIterations (euclidStart x y) = euclidLoop 45 (euclidStart x y)

/-- R103: MODINV fails, with RES = 0 and OK = 0, when `N ≤ 1`, `A mod N = 0` or `gcd(A, N) ≠ 1`. -/
def Obligations.ModinvFailure : Prop :=
  ∀ s : State, (s.ln.toNat ≤ 1 ∨ s.la.toNat % s.ln.toNat = 0 ∨ Nat.gcd s.la.toNat s.ln.toNat ≠ 1) →
    exec .modinv s = .next { s with res := 0, ok := false, err := 0, done := true, busy := false }

/-- R103, R104: in every other case RES is the unique inverse in `[1, N-1]`, whatever Bézout coefficient it is
taken from, with OK = 1; nothing but RES and STATUS changes, S and T neither. -/
def Obligations.ModinvIsTheInverse : Prop :=
  ∀ s : State, 2 ≤ s.ln.toNat → s.la.toNat % s.ln.toNat ≠ 0 →
    Nat.gcd s.la.toNat s.ln.toNat = 1 →
    ∃ t, exec .modinv s = .next t ∧
      t = { s with res := t.res, ok := true, err := 0, done := true, busy := false } ∧
      1 ≤ t.res.toNat ∧ t.res.toNat ≤ s.ln.toNat - 1 ∧
      s.la.toNat * t.res.toNat % s.ln.toNat = 1 ∧
      (∀ C, C < s.ln.toNat → s.la.toNat * C % s.ln.toNat = 1 → C = t.res.toNat) ∧
      (∀ S : Int, (s.la.toNat : Int) * S % (s.ln.toNat : Int) = 1 →
        S % (s.ln.toNat : Int) = (t.res.toNat : Int)) ∧
      ∀ k, t.slot k = s.slot k

/-! ## The exponentiation engine -/

/-- R114: for `n = 0`, RES = 0, OK = 0 and ERR = 0, for every a and e. -/
def Obligations.ModpowZeroModulus : Prop :=
  ∀ s : State, s.ln = 0 →
    exec .modpow s = .next { s with res := 0, ok := false, err := 0, done := true, busy := false }

/-- R112: the `a < 2` test is on the raw operand: for `a = 0` and `a = 1` and every `n ≥ 1`, RES = a for
every e. -/
def Obligations.ModpowRawOperandShortcut : Prop :=
  ∀ s : State, s.ln ≠ 0 → (s.la = 0 ∨ s.la = 1) →
    exec .modpow s = .next { s with res := s.la, ok := true, err := 0, done := true, busy := false }

/-- R113: for `n = 1` and `a ≥ 2`, RES = 0 for every e, `e = 0` included. -/
def Obligations.ModpowModulusOne : Prop :=
  ∀ s : State, s.ln = 1 → 2 ≤ s.la.toNat →
    exec .modpow s = .next { s with res := 0, ok := true, err := 0, done := true, busy := false }

/-- R115: for `n ≥ 1` and `a ≥ 2`, RES is the unique integer in `[0, n)` congruent to `a^e` modulo n, with
OK = 1; nothing but RES and STATUS changes. -/
def Obligations.ModpowComputesPower : Prop :=
  ∀ s : State, s.ln ≠ 0 → 2 ≤ s.la.toNat →
    ∃ t, exec .modpow s = .next t ∧
      t = { s with res := t.res, ok := true, err := 0, done := true, busy := false } ∧
      t.res.toNat < s.ln.toNat ∧ t.res.toNat = s.la.toNat ^ s.lb.toNat % s.ln.toNat ∧
      ∀ k, t.slot k = s.slot k

/-- R110: the product of two values below a u32 modulus fits the 64-bit intermediate, so reducing the
intermediate reduces the product. -/
def Obligations.ProductsFitIntermediate : Prop :=
  ∀ n x y : Nat, n < 2 ^ 32 → x < n → y < n →
    x * y < 2 ^ 64 ∧ mulMod n x y = x * y % n ∧ mulMod n x y < n

/-! ## The table -/

/-- R121: TCLR makes every slot empty, TCOUNT 0 and TVALID 1, with OK = 1; RES, S and T are unchanged; then
every residue is absent. -/
def Obligations.TclrEmptiesTable : Prop :=
  ∀ s : State, ∃ t, exec .tclr s = .next t ∧
    t = { s with tab := t.tab, tcount := 0, tvalid := true, ok := true, err := 0, done := true,
                 busy := false } ∧
    (∀ k, t.slot k = { exp := 0, res := 0 }) ∧ ∀ r, t.lookup r = none

/-- R122: while TVALID = 0, TINS and TLKP complete with ERR = 3 and change nothing; TVALID is 0 after reset,
and only TCLR changes it. -/
def Obligations.TableUninitErrors : Prop :=
  (∀ s : State, s.tvalid = false →
    exec .tins s = .next { s with ok := false, err := 3#4, done := true, busy := false } ∧
    exec .tlkp s = .next { s with ok := false, err := 3#4, done := true, busy := false }) ∧
  State.reset.tvalid = false ∧
  (∀ s t : State, step s = .next t → s.tvalid = false → t.tvalid = true → CompletesTclr s)

/-- R133, R134, R143: with TVALID = 1, TINS of residue 0 completes with ERR = 4, and of another residue on a
full table with ERR = 5; both change nothing but STATUS. -/
def Obligations.TinsErrorsInOrder : Prop :=
  ∀ s : State, s.tvalid = true →
    (s.la = 0 →
      exec .tins s = .next { s with ok := false, err := 4#4, done := true, busy := false }) ∧
    (s.la ≠ 0 → s.tcount = s.capr →
      exec .tins s = .next { s with ok := false, err := 5#4, done := true, busy := false })

/-- R125, R128: TINS stores the entry in the first empty slot of the residue's probe sequence, found within
TCOUNT + 1 probes, counts it, and returns the slot index with OK = 1; every other slot and every other
register is unchanged. -/
def Obligations.TinsStoresAtFirstEmptySlot : Prop :=
  ∀ s : State, Invariant s → s.tvalid = true → s.la ≠ 0 → s.tcount ≠ s.capr →
    ∃ t i, exec .tins s = .next t ∧ i ≤ s.tcount.toNat ∧
      (∀ j < i, (s.slot (s.probe s.la.toNat j)).res ≠ 0) ∧
      (s.slot (s.probe s.la.toNat i)).res = 0 ∧
      t.slot (s.probe s.la.toNat i) = { exp := s.lb, res := s.la } ∧
      (∀ k, k ≠ s.probe s.la.toNat i → t.slot k = s.slot k) ∧
      t.tcount.toNat = s.tcount.toNat + 1 ∧ t.res.toNat = s.probe s.la.toNat i ∧
      t = { s with tab := t.tab, tcount := t.tcount, res := t.res, ok := true, err := 0,
                   done := true, busy := false }

/-- R128: TINS terminates. From every state that meets the invariant it answers a next state; where it probes,
TCOUNT + 1 is at most CAP and the walk ends at an empty slot within TCOUNT + 1 probes, so that the model's bound of
CAP probes, and any bound from TCOUNT + 1 on, gives the same slot; and on a full table it reports TABLE_FULL. -/
def Obligations.TinsTerminates : Prop :=
  (∀ s : State, Invariant s → ∃ t, exec .tins s = .next t) ∧
  (∀ s : State, Invariant s → s.tvalid = true → s.la ≠ 0 → s.tcount ≠ s.capr →
    s.tcount.toNat + 1 ≤ s.cap ∧
    ∃ k, (s.slot k).res = 0 ∧
      ∀ probes, s.tcount.toNat + 1 ≤ probes →
        s.findEmpty probes (s.homeSlot s.la.toNat) = some k) ∧
  (∀ s : State, s.tvalid = true → s.la ≠ 0 → s.tcount = s.capr →
    exec .tins s = .next { s with ok := false, err := 5#4, done := true, busy := false })

/-- R129, R130, R131: TLKP with TVALID = 1. Residue 0 is absent; the exponent of the first match is returned
with OK = 1, exponent 0 too; a residue is absent where an empty slot comes before any match, and where all
CAP probes find other residues. Nothing but RES and STATUS changes in any case. -/
def Obligations.TlkpOutcome : Prop :=
  ∀ s : State, s.tvalid = true → 0 < s.cap →
    (s.la = 0 →
      exec .tlkp s = .next { s with res := 0, ok := false, err := 0, done := true, busy := false }) ∧
    (∀ i < s.cap, s.la ≠ 0 → (s.slot (s.probe s.la.toNat i)).res = s.la →
      (∀ j < i, (s.slot (s.probe s.la.toNat j)).res ≠ 0 ∧
        (s.slot (s.probe s.la.toNat j)).res ≠ s.la) →
      exec .tlkp s = .next { s with res := (s.slot (s.probe s.la.toNat i)).exp, ok := true, err := 0,
                                    done := true, busy := false }) ∧
    (∀ i < s.cap, s.la ≠ 0 → (s.slot (s.probe s.la.toNat i)).res = 0 →
      (∀ j < i, (s.slot (s.probe s.la.toNat j)).res ≠ s.la) →
      exec .tlkp s = .next { s with res := 0, ok := false, err := 0, done := true, busy := false }) ∧
    (s.la ≠ 0 → (∀ i < s.cap, (s.slot (s.probe s.la.toNat i)).res ≠ s.la) →
      exec .tlkp s = .next { s with res := 0, ok := false, err := 0, done := true, busy := false })

/-- R59: the probe sequence of a residue is `(r mod CAP + i) mod CAP`, and it visits each slot exactly once. -/
def Obligations.ProbeSequenceVisitsEverySlotOnce : Prop :=
  ∀ (s : State) (r k : Nat), k < s.cap →
    (∀ i, s.probe r i = (r % s.cap + i) % s.cap) ∧
    (∃ i < s.cap, s.probe r i = k ∧ ∀ j < s.cap, s.probe r j = k → j = i)

/-- R124: while TVALID = 1 and `TCOUNT < CAP`, at least one slot is empty, and every probe sequence reaches an
empty slot within TCOUNT + 1 probes; every probe sequence visits every slot, and at most TCOUNT of them are
filled. -/
def Obligations.EmptySlotWithinTcountPlusOneProbes : Prop :=
  ∀ s : State, Invariant s → s.tvalid = true → s.tcount.toNat < s.cap →
    (∃ k < s.cap, (s.slot k).res = 0) ∧
    (∀ r, ∃ i < s.tcount.toNat + 1, (s.slot (s.probe r i)).res = 0) ∧
    (∀ r, ∀ k < s.cap, ∃ i < s.cap, s.probe r i = k) ∧
    s.filledSlots ≤ s.tcount.toNat

/-- R123: while TVALID = 1 TCOUNT equals the number of filled slots; TCLR makes both 0; each successful TINS
fills exactly one empty slot and adds 1 to TCOUNT; no other command writes the table or TCOUNT. -/
def Obligations.TcountCountsFilledSlots : Prop :=
  (∀ s : State, Invariant s → s.tvalid = true → s.filledSlots = s.tcount.toNat) ∧
  (∀ s t : State, exec .tclr s = .next t → t.filledSlots = 0 ∧ t.tcount = 0) ∧
  (∀ s t : State, Invariant s → exec .tins s = .next t → t.ok = true →
    (∃ k < s.cap, (s.slot k).res = 0 ∧ (t.slot k).res ≠ 0 ∧ ∀ j, j ≠ k → t.slot j = s.slot j) ∧
    t.filledSlots = s.filledSlots + 1 ∧ t.tcount.toNat = s.tcount.toNat + 1) ∧
  (∀ (i : Instr) (s t : State), i ≠ .tclr → i ≠ .tins → exec i s = .next t →
    t.tcount = s.tcount ∧ ∀ k, t.slot k = s.slot k)

/-- R60: a filled slot is never overwritten, and becomes empty or unspecified only through TCLR or reset. -/
def Obligations.FilledSlotKeptUntilClearOrReset : Prop :=
  ∀ (s t : State) (k : Nat), Invariant s → s.tvalid = true → (s.slot k).res ≠ 0 → step s = .next t →
    s.turn ≠ .reset → ¬ CompletesTclr s → t.slot k = s.slot k

/-- R132, first writer wins. TINS of a residue that is absent makes it present with its exponent, at a probe
position before which every position is filled with another residue; a TINS of a residue that is present lands
at a later position; while a residue is present, every step but a reset and the completion of a TCLR, a later
TINS of the same residue too, leaves TLKP's answer for it as it is; and TLKP returns that answer with OK = 1. -/
def Obligations.FirstWriterWins : Prop :=
  (∀ s t : State, Invariant s → s.lookup s.la = none → exec .tins s = .next t → t.ok = true →
    t.lookup s.la = some s.lb ∧
    ∃ i < s.cap, t.slot (s.probe s.la.toNat i) = { exp := s.lb, res := s.la } ∧
      ∀ j < i, (t.slot (s.probe s.la.toNat j)).res ≠ 0 ∧
        (t.slot (s.probe s.la.toNat j)).res ≠ s.la) ∧
  (∀ (s t : State) (i : Nat), Invariant s → i < s.cap → (s.slot (s.probe s.la.toNat i)).res = s.la →
    (∀ j < i, (s.slot (s.probe s.la.toNat j)).res ≠ 0 ∧
      (s.slot (s.probe s.la.toNat j)).res ≠ s.la) →
    exec .tins s = .next t → t.ok = true →
    ∃ j, i < j ∧ j < s.cap ∧ (s.slot (s.probe s.la.toNat j)).res = 0 ∧
      t.slot (s.probe s.la.toNat j) = { exp := s.lb, res := s.la }) ∧
  (∀ (s t : State) (r x : Word), Invariant s → s.tvalid = true → s.lookup r = some x →
    step s = .next t → s.turn ≠ .reset → ¬ CompletesTclr s →
    t.tvalid = true ∧ t.lookup r = some x) ∧
  (∀ (s : State) (x : Word), s.tvalid = true → s.lookup s.la = some x →
    exec .tlkp s = .next { s with res := x, ok := true, err := 0, done := true, busy := false })
end

