-- ==== Sys2Proof/Laws/State.lean ====
section
/-! SUPPORT. One lemma per field per update of the state, each true by `rfl`, so that no later proof
unfolds a record update; and, for the updates that leave the table alone, that every slot reads as
before. -/

namespace Sys2Proof.Machine

variable (s : State)

@[simp] theorem State.finish_busy (okv : Bool) : (s.finish okv).busy = false := by rfl
@[simp] theorem State.finish_done (okv : Bool) : (s.finish okv).done = true := by rfl
@[simp] theorem State.finish_ok (okv : Bool) : (s.finish okv).ok = okv := by rfl
@[simp] theorem State.finish_err (okv : Bool) : (s.finish okv).err = 0 := by rfl
@[simp] theorem State.finish_cmdovr (okv : Bool) : (s.finish okv).cmdovr = s.cmdovr := by rfl
@[simp] theorem State.finish_tvalid (okv : Bool) : (s.finish okv).tvalid = s.tvalid := by rfl
@[simp] theorem State.finish_opa (okv : Bool) : (s.finish okv).opa = s.opa := by rfl
@[simp] theorem State.finish_opb (okv : Bool) : (s.finish okv).opb = s.opb := by rfl
@[simp] theorem State.finish_opn (okv : Bool) : (s.finish okv).opn = s.opn := by rfl
@[simp] theorem State.finish_res (okv : Bool) : (s.finish okv).res = s.res := by rfl
@[simp] theorem State.finish_sLo (okv : Bool) : (s.finish okv).sLo = s.sLo := by rfl
@[simp] theorem State.finish_sHi (okv : Bool) : (s.finish okv).sHi = s.sHi := by rfl
@[simp] theorem State.finish_tLo (okv : Bool) : (s.finish okv).tLo = s.tLo := by rfl
@[simp] theorem State.finish_tHi (okv : Bool) : (s.finish okv).tHi = s.tHi := by rfl
@[simp] theorem State.finish_tcount (okv : Bool) : (s.finish okv).tcount = s.tcount := by rfl
@[simp] theorem State.finish_capr (okv : Bool) : (s.finish okv).capr = s.capr := by rfl
@[simp] theorem State.finish_lcmd (okv : Bool) : (s.finish okv).lcmd = s.lcmd := by rfl
@[simp] theorem State.finish_la (okv : Bool) : (s.finish okv).la = s.la := by rfl
@[simp] theorem State.finish_lb (okv : Bool) : (s.finish okv).lb = s.lb := by rfl
@[simp] theorem State.finish_ln (okv : Bool) : (s.finish okv).ln = s.ln := by rfl
@[simp] theorem State.finish_tab (okv : Bool) : (s.finish okv).tab = s.tab := by rfl
@[simp] theorem State.finish_resets (okv : Bool) : (s.finish okv).resets = s.resets := by rfl
@[simp] theorem State.finish_env (okv : Bool) : (s.finish okv).env = s.env := by rfl
@[simp] theorem State.finish_cap (okv : Bool) : (s.finish okv).cap = s.cap := by rfl
@[simp] theorem State.finish_slot (okv : Bool) (k : Nat) : (s.finish okv).slot k = s.slot k := by rfl

@[simp] theorem State.raiseErr_busy (c : ErrCode) : (s.raiseErr c).busy = false := by rfl
@[simp] theorem State.raiseErr_done (c : ErrCode) : (s.raiseErr c).done = true := by rfl
@[simp] theorem State.raiseErr_ok (c : ErrCode) : (s.raiseErr c).ok = false := by rfl
@[simp] theorem State.raiseErr_err (c : ErrCode) : (s.raiseErr c).err = c.code := by rfl
@[simp] theorem State.raiseErr_cmdovr (c : ErrCode) : (s.raiseErr c).cmdovr = s.cmdovr := by rfl
@[simp] theorem State.raiseErr_tvalid (c : ErrCode) : (s.raiseErr c).tvalid = s.tvalid := by rfl
@[simp] theorem State.raiseErr_opa (c : ErrCode) : (s.raiseErr c).opa = s.opa := by rfl
@[simp] theorem State.raiseErr_opb (c : ErrCode) : (s.raiseErr c).opb = s.opb := by rfl
@[simp] theorem State.raiseErr_opn (c : ErrCode) : (s.raiseErr c).opn = s.opn := by rfl
@[simp] theorem State.raiseErr_res (c : ErrCode) : (s.raiseErr c).res = s.res := by rfl
@[simp] theorem State.raiseErr_sLo (c : ErrCode) : (s.raiseErr c).sLo = s.sLo := by rfl
@[simp] theorem State.raiseErr_sHi (c : ErrCode) : (s.raiseErr c).sHi = s.sHi := by rfl
@[simp] theorem State.raiseErr_tLo (c : ErrCode) : (s.raiseErr c).tLo = s.tLo := by rfl
@[simp] theorem State.raiseErr_tHi (c : ErrCode) : (s.raiseErr c).tHi = s.tHi := by rfl
@[simp] theorem State.raiseErr_tcount (c : ErrCode) : (s.raiseErr c).tcount = s.tcount := by rfl
@[simp] theorem State.raiseErr_capr (c : ErrCode) : (s.raiseErr c).capr = s.capr := by rfl
@[simp] theorem State.raiseErr_lcmd (c : ErrCode) : (s.raiseErr c).lcmd = s.lcmd := by rfl
@[simp] theorem State.raiseErr_la (c : ErrCode) : (s.raiseErr c).la = s.la := by rfl
@[simp] theorem State.raiseErr_lb (c : ErrCode) : (s.raiseErr c).lb = s.lb := by rfl
@[simp] theorem State.raiseErr_ln (c : ErrCode) : (s.raiseErr c).ln = s.ln := by rfl
@[simp] theorem State.raiseErr_tab (c : ErrCode) : (s.raiseErr c).tab = s.tab := by rfl
@[simp] theorem State.raiseErr_resets (c : ErrCode) : (s.raiseErr c).resets = s.resets := by rfl
@[simp] theorem State.raiseErr_env (c : ErrCode) : (s.raiseErr c).env = s.env := by rfl
@[simp] theorem State.raiseErr_cap (c : ErrCode) : (s.raiseErr c).cap = s.cap := by rfl
@[simp] theorem State.raiseErr_slot (c : ErrCode) (k : Nat) : (s.raiseErr c).slot k = s.slot k := by rfl

@[simp] theorem State.setRes_busy (v : Nat) : (s.setRes v).busy = s.busy := by rfl
@[simp] theorem State.setRes_done (v : Nat) : (s.setRes v).done = s.done := by rfl
@[simp] theorem State.setRes_ok (v : Nat) : (s.setRes v).ok = s.ok := by rfl
@[simp] theorem State.setRes_err (v : Nat) : (s.setRes v).err = s.err := by rfl
@[simp] theorem State.setRes_cmdovr (v : Nat) : (s.setRes v).cmdovr = s.cmdovr := by rfl
@[simp] theorem State.setRes_tvalid (v : Nat) : (s.setRes v).tvalid = s.tvalid := by rfl
@[simp] theorem State.setRes_opa (v : Nat) : (s.setRes v).opa = s.opa := by rfl
@[simp] theorem State.setRes_opb (v : Nat) : (s.setRes v).opb = s.opb := by rfl
@[simp] theorem State.setRes_opn (v : Nat) : (s.setRes v).opn = s.opn := by rfl
@[simp] theorem State.setRes_res (v : Nat) : (s.setRes v).res = BitVec.ofNat 32 v := by rfl
@[simp] theorem State.setRes_sLo (v : Nat) : (s.setRes v).sLo = s.sLo := by rfl
@[simp] theorem State.setRes_sHi (v : Nat) : (s.setRes v).sHi = s.sHi := by rfl
@[simp] theorem State.setRes_tLo (v : Nat) : (s.setRes v).tLo = s.tLo := by rfl
@[simp] theorem State.setRes_tHi (v : Nat) : (s.setRes v).tHi = s.tHi := by rfl
@[simp] theorem State.setRes_tcount (v : Nat) : (s.setRes v).tcount = s.tcount := by rfl
@[simp] theorem State.setRes_capr (v : Nat) : (s.setRes v).capr = s.capr := by rfl
@[simp] theorem State.setRes_lcmd (v : Nat) : (s.setRes v).lcmd = s.lcmd := by rfl
@[simp] theorem State.setRes_la (v : Nat) : (s.setRes v).la = s.la := by rfl
@[simp] theorem State.setRes_lb (v : Nat) : (s.setRes v).lb = s.lb := by rfl
@[simp] theorem State.setRes_ln (v : Nat) : (s.setRes v).ln = s.ln := by rfl
@[simp] theorem State.setRes_tab (v : Nat) : (s.setRes v).tab = s.tab := by rfl
@[simp] theorem State.setRes_resets (v : Nat) : (s.setRes v).resets = s.resets := by rfl
@[simp] theorem State.setRes_env (v : Nat) : (s.setRes v).env = s.env := by rfl
@[simp] theorem State.setRes_cap (v : Nat) : (s.setRes v).cap = s.cap := by rfl
@[simp] theorem State.setRes_slot (v : Nat) (k : Nat) : (s.setRes v).slot k = s.slot k := by rfl

@[simp] theorem State.setBezout_busy (S T : Int) : (s.setBezout S T).busy = s.busy := by rfl
@[simp] theorem State.setBezout_done (S T : Int) : (s.setBezout S T).done = s.done := by rfl
@[simp] theorem State.setBezout_ok (S T : Int) : (s.setBezout S T).ok = s.ok := by rfl
@[simp] theorem State.setBezout_err (S T : Int) : (s.setBezout S T).err = s.err := by rfl
@[simp] theorem State.setBezout_cmdovr (S T : Int) : (s.setBezout S T).cmdovr = s.cmdovr := by rfl
@[simp] theorem State.setBezout_tvalid (S T : Int) : (s.setBezout S T).tvalid = s.tvalid := by rfl
@[simp] theorem State.setBezout_opa (S T : Int) : (s.setBezout S T).opa = s.opa := by rfl
@[simp] theorem State.setBezout_opb (S T : Int) : (s.setBezout S T).opb = s.opb := by rfl
@[simp] theorem State.setBezout_opn (S T : Int) : (s.setBezout S T).opn = s.opn := by rfl
@[simp] theorem State.setBezout_res (S T : Int) : (s.setBezout S T).res = s.res := by rfl
@[simp] theorem State.setBezout_sLo (S T : Int) : (s.setBezout S T).sLo = (BitVec.ofInt 64 S).extractLsb' 0 32 := by rfl
@[simp] theorem State.setBezout_sHi (S T : Int) : (s.setBezout S T).sHi = (BitVec.ofInt 64 S).extractLsb' 32 32 := by rfl
@[simp] theorem State.setBezout_tLo (S T : Int) : (s.setBezout S T).tLo = (BitVec.ofInt 64 T).extractLsb' 0 32 := by rfl
@[simp] theorem State.setBezout_tHi (S T : Int) : (s.setBezout S T).tHi = (BitVec.ofInt 64 T).extractLsb' 32 32 := by rfl
@[simp] theorem State.setBezout_tcount (S T : Int) : (s.setBezout S T).tcount = s.tcount := by rfl
@[simp] theorem State.setBezout_capr (S T : Int) : (s.setBezout S T).capr = s.capr := by rfl
@[simp] theorem State.setBezout_lcmd (S T : Int) : (s.setBezout S T).lcmd = s.lcmd := by rfl
@[simp] theorem State.setBezout_la (S T : Int) : (s.setBezout S T).la = s.la := by rfl
@[simp] theorem State.setBezout_lb (S T : Int) : (s.setBezout S T).lb = s.lb := by rfl
@[simp] theorem State.setBezout_ln (S T : Int) : (s.setBezout S T).ln = s.ln := by rfl
@[simp] theorem State.setBezout_tab (S T : Int) : (s.setBezout S T).tab = s.tab := by rfl
@[simp] theorem State.setBezout_resets (S T : Int) : (s.setBezout S T).resets = s.resets := by rfl
@[simp] theorem State.setBezout_env (S T : Int) : (s.setBezout S T).env = s.env := by rfl
@[simp] theorem State.setBezout_cap (S T : Int) : (s.setBezout S T).cap = s.cap := by rfl
@[simp] theorem State.setBezout_slot (S T : Int) (k : Nat) : (s.setBezout S T).slot k = s.slot k := by rfl

@[simp] theorem State.setSlot_busy (k : Nat) (e : Slot) : (s.setSlot k e).busy = s.busy := by rfl
@[simp] theorem State.setSlot_done (k : Nat) (e : Slot) : (s.setSlot k e).done = s.done := by rfl
@[simp] theorem State.setSlot_ok (k : Nat) (e : Slot) : (s.setSlot k e).ok = s.ok := by rfl
@[simp] theorem State.setSlot_err (k : Nat) (e : Slot) : (s.setSlot k e).err = s.err := by rfl
@[simp] theorem State.setSlot_cmdovr (k : Nat) (e : Slot) : (s.setSlot k e).cmdovr = s.cmdovr := by rfl
@[simp] theorem State.setSlot_tvalid (k : Nat) (e : Slot) : (s.setSlot k e).tvalid = s.tvalid := by rfl
@[simp] theorem State.setSlot_opa (k : Nat) (e : Slot) : (s.setSlot k e).opa = s.opa := by rfl
@[simp] theorem State.setSlot_opb (k : Nat) (e : Slot) : (s.setSlot k e).opb = s.opb := by rfl
@[simp] theorem State.setSlot_opn (k : Nat) (e : Slot) : (s.setSlot k e).opn = s.opn := by rfl
@[simp] theorem State.setSlot_res (k : Nat) (e : Slot) : (s.setSlot k e).res = s.res := by rfl
@[simp] theorem State.setSlot_sLo (k : Nat) (e : Slot) : (s.setSlot k e).sLo = s.sLo := by rfl
@[simp] theorem State.setSlot_sHi (k : Nat) (e : Slot) : (s.setSlot k e).sHi = s.sHi := by rfl
@[simp] theorem State.setSlot_tLo (k : Nat) (e : Slot) : (s.setSlot k e).tLo = s.tLo := by rfl
@[simp] theorem State.setSlot_tHi (k : Nat) (e : Slot) : (s.setSlot k e).tHi = s.tHi := by rfl
@[simp] theorem State.setSlot_tcount (k : Nat) (e : Slot) : (s.setSlot k e).tcount = s.tcount := by rfl
@[simp] theorem State.setSlot_capr (k : Nat) (e : Slot) : (s.setSlot k e).capr = s.capr := by rfl
@[simp] theorem State.setSlot_lcmd (k : Nat) (e : Slot) : (s.setSlot k e).lcmd = s.lcmd := by rfl
@[simp] theorem State.setSlot_la (k : Nat) (e : Slot) : (s.setSlot k e).la = s.la := by rfl
@[simp] theorem State.setSlot_lb (k : Nat) (e : Slot) : (s.setSlot k e).lb = s.lb := by rfl
@[simp] theorem State.setSlot_ln (k : Nat) (e : Slot) : (s.setSlot k e).ln = s.ln := by rfl
@[simp] theorem State.setSlot_tab (k : Nat) (e : Slot) : (s.setSlot k e).tab = s.tab.write k e := by rfl
@[simp] theorem State.setSlot_resets (k : Nat) (e : Slot) : (s.setSlot k e).resets = s.resets := by rfl
@[simp] theorem State.setSlot_env (k : Nat) (e : Slot) : (s.setSlot k e).env = s.env := by rfl
@[simp] theorem State.setSlot_cap (k : Nat) (e : Slot) : (s.setSlot k e).cap = s.cap := by rfl

@[simp] theorem State.clearTable_busy : (s.clearTable).busy = s.busy := by rfl
@[simp] theorem State.clearTable_done : (s.clearTable).done = s.done := by rfl
@[simp] theorem State.clearTable_ok : (s.clearTable).ok = s.ok := by rfl
@[simp] theorem State.clearTable_err : (s.clearTable).err = s.err := by rfl
@[simp] theorem State.clearTable_cmdovr : (s.clearTable).cmdovr = s.cmdovr := by rfl
@[simp] theorem State.clearTable_tvalid : (s.clearTable).tvalid = true := by rfl
@[simp] theorem State.clearTable_opa : (s.clearTable).opa = s.opa := by rfl
@[simp] theorem State.clearTable_opb : (s.clearTable).opb = s.opb := by rfl
@[simp] theorem State.clearTable_opn : (s.clearTable).opn = s.opn := by rfl
@[simp] theorem State.clearTable_res : (s.clearTable).res = s.res := by rfl
@[simp] theorem State.clearTable_sLo : (s.clearTable).sLo = s.sLo := by rfl
@[simp] theorem State.clearTable_sHi : (s.clearTable).sHi = s.sHi := by rfl
@[simp] theorem State.clearTable_tLo : (s.clearTable).tLo = s.tLo := by rfl
@[simp] theorem State.clearTable_tHi : (s.clearTable).tHi = s.tHi := by rfl
@[simp] theorem State.clearTable_tcount : (s.clearTable).tcount = 0 := by rfl
@[simp] theorem State.clearTable_capr : (s.clearTable).capr = s.capr := by rfl
@[simp] theorem State.clearTable_lcmd : (s.clearTable).lcmd = s.lcmd := by rfl
@[simp] theorem State.clearTable_la : (s.clearTable).la = s.la := by rfl
@[simp] theorem State.clearTable_lb : (s.clearTable).lb = s.lb := by rfl
@[simp] theorem State.clearTable_ln : (s.clearTable).ln = s.ln := by rfl
@[simp] theorem State.clearTable_tab : (s.clearTable).tab = [] := by rfl
@[simp] theorem State.clearTable_resets : (s.clearTable).resets = s.resets := by rfl
@[simp] theorem State.clearTable_env : (s.clearTable).env = s.env := by rfl
@[simp] theorem State.clearTable_cap : (s.clearTable).cap = s.cap := by rfl

@[simp] theorem State.countInsert_busy : (s.countInsert).busy = s.busy := by rfl
@[simp] theorem State.countInsert_done : (s.countInsert).done = s.done := by rfl
@[simp] theorem State.countInsert_ok : (s.countInsert).ok = s.ok := by rfl
@[simp] theorem State.countInsert_err : (s.countInsert).err = s.err := by rfl
@[simp] theorem State.countInsert_cmdovr : (s.countInsert).cmdovr = s.cmdovr := by rfl
@[simp] theorem State.countInsert_tvalid : (s.countInsert).tvalid = s.tvalid := by rfl
@[simp] theorem State.countInsert_opa : (s.countInsert).opa = s.opa := by rfl
@[simp] theorem State.countInsert_opb : (s.countInsert).opb = s.opb := by rfl
@[simp] theorem State.countInsert_opn : (s.countInsert).opn = s.opn := by rfl
@[simp] theorem State.countInsert_res : (s.countInsert).res = s.res := by rfl
@[simp] theorem State.countInsert_sLo : (s.countInsert).sLo = s.sLo := by rfl
@[simp] theorem State.countInsert_sHi : (s.countInsert).sHi = s.sHi := by rfl
@[simp] theorem State.countInsert_tLo : (s.countInsert).tLo = s.tLo := by rfl
@[simp] theorem State.countInsert_tHi : (s.countInsert).tHi = s.tHi := by rfl
@[simp] theorem State.countInsert_tcount : (s.countInsert).tcount = s.tcount + 1 := by rfl
@[simp] theorem State.countInsert_capr : (s.countInsert).capr = s.capr := by rfl
@[simp] theorem State.countInsert_lcmd : (s.countInsert).lcmd = s.lcmd := by rfl
@[simp] theorem State.countInsert_la : (s.countInsert).la = s.la := by rfl
@[simp] theorem State.countInsert_lb : (s.countInsert).lb = s.lb := by rfl
@[simp] theorem State.countInsert_ln : (s.countInsert).ln = s.ln := by rfl
@[simp] theorem State.countInsert_tab : (s.countInsert).tab = s.tab := by rfl
@[simp] theorem State.countInsert_resets : (s.countInsert).resets = s.resets := by rfl
@[simp] theorem State.countInsert_env : (s.countInsert).env = s.env := by rfl
@[simp] theorem State.countInsert_cap : (s.countInsert).cap = s.cap := by rfl
@[simp] theorem State.countInsert_slot (k : Nat) : (s.countInsert).slot k = s.slot k := by rfl

@[simp] theorem State.accept_busy (v : Word) : (s.accept v).busy = true := by rfl
@[simp] theorem State.accept_done (v : Word) : (s.accept v).done = false := by rfl
@[simp] theorem State.accept_ok (v : Word) : (s.accept v).ok = false := by rfl
@[simp] theorem State.accept_err (v : Word) : (s.accept v).err = 0 := by rfl
@[simp] theorem State.accept_cmdovr (v : Word) : (s.accept v).cmdovr = s.cmdovr := by rfl
@[simp] theorem State.accept_tvalid (v : Word) : (s.accept v).tvalid = s.tvalid := by rfl
@[simp] theorem State.accept_opa (v : Word) : (s.accept v).opa = s.opa := by rfl
@[simp] theorem State.accept_opb (v : Word) : (s.accept v).opb = s.opb := by rfl
@[simp] theorem State.accept_opn (v : Word) : (s.accept v).opn = s.opn := by rfl
@[simp] theorem State.accept_res (v : Word) : (s.accept v).res = s.res := by rfl
@[simp] theorem State.accept_sLo (v : Word) : (s.accept v).sLo = s.sLo := by rfl
@[simp] theorem State.accept_sHi (v : Word) : (s.accept v).sHi = s.sHi := by rfl
@[simp] theorem State.accept_tLo (v : Word) : (s.accept v).tLo = s.tLo := by rfl
@[simp] theorem State.accept_tHi (v : Word) : (s.accept v).tHi = s.tHi := by rfl
@[simp] theorem State.accept_tcount (v : Word) : (s.accept v).tcount = s.tcount := by rfl
@[simp] theorem State.accept_capr (v : Word) : (s.accept v).capr = s.capr := by rfl
@[simp] theorem State.accept_lcmd (v : Word) : (s.accept v).lcmd = v := by rfl
@[simp] theorem State.accept_la (v : Word) : (s.accept v).la = s.opa := by rfl
@[simp] theorem State.accept_lb (v : Word) : (s.accept v).lb = s.opb := by rfl
@[simp] theorem State.accept_ln (v : Word) : (s.accept v).ln = s.opn := by rfl
@[simp] theorem State.accept_tab (v : Word) : (s.accept v).tab = s.tab := by rfl
@[simp] theorem State.accept_resets (v : Word) : (s.accept v).resets = s.resets := by rfl
@[simp] theorem State.accept_env (v : Word) : (s.accept v).env = s.env := by rfl
@[simp] theorem State.accept_cap (v : Word) : (s.accept v).cap = s.cap := by rfl
@[simp] theorem State.accept_slot (v : Word) (k : Nat) : (s.accept v).slot k = s.slot k := by rfl

@[simp] theorem State.dropCmd_busy : (s.dropCmd).busy = s.busy := by rfl
@[simp] theorem State.dropCmd_done : (s.dropCmd).done = s.done := by rfl
@[simp] theorem State.dropCmd_ok : (s.dropCmd).ok = s.ok := by rfl
@[simp] theorem State.dropCmd_err : (s.dropCmd).err = s.err := by rfl
@[simp] theorem State.dropCmd_cmdovr : (s.dropCmd).cmdovr = true := by rfl
@[simp] theorem State.dropCmd_tvalid : (s.dropCmd).tvalid = s.tvalid := by rfl
@[simp] theorem State.dropCmd_opa : (s.dropCmd).opa = s.opa := by rfl
@[simp] theorem State.dropCmd_opb : (s.dropCmd).opb = s.opb := by rfl
@[simp] theorem State.dropCmd_opn : (s.dropCmd).opn = s.opn := by rfl
@[simp] theorem State.dropCmd_res : (s.dropCmd).res = s.res := by rfl
@[simp] theorem State.dropCmd_sLo : (s.dropCmd).sLo = s.sLo := by rfl
@[simp] theorem State.dropCmd_sHi : (s.dropCmd).sHi = s.sHi := by rfl
@[simp] theorem State.dropCmd_tLo : (s.dropCmd).tLo = s.tLo := by rfl
@[simp] theorem State.dropCmd_tHi : (s.dropCmd).tHi = s.tHi := by rfl
@[simp] theorem State.dropCmd_tcount : (s.dropCmd).tcount = s.tcount := by rfl
@[simp] theorem State.dropCmd_capr : (s.dropCmd).capr = s.capr := by rfl
@[simp] theorem State.dropCmd_lcmd : (s.dropCmd).lcmd = s.lcmd := by rfl
@[simp] theorem State.dropCmd_la : (s.dropCmd).la = s.la := by rfl
@[simp] theorem State.dropCmd_lb : (s.dropCmd).lb = s.lb := by rfl
@[simp] theorem State.dropCmd_ln : (s.dropCmd).ln = s.ln := by rfl
@[simp] theorem State.dropCmd_tab : (s.dropCmd).tab = s.tab := by rfl
@[simp] theorem State.dropCmd_resets : (s.dropCmd).resets = s.resets := by rfl
@[simp] theorem State.dropCmd_env : (s.dropCmd).env = s.env := by rfl
@[simp] theorem State.dropCmd_cap : (s.dropCmd).cap = s.cap := by rfl
@[simp] theorem State.dropCmd_slot (k : Nat) : (s.dropCmd).slot k = s.slot k := by rfl

@[simp] theorem State.writeStatus_busy (v : Word) : (s.writeStatus v).busy = s.busy := by rfl
@[simp] theorem State.writeStatus_done (v : Word) : (s.writeStatus v).done = if v.getLsbD 1 then false else s.done := by rfl
@[simp] theorem State.writeStatus_ok (v : Word) : (s.writeStatus v).ok = s.ok := by rfl
@[simp] theorem State.writeStatus_err (v : Word) : (s.writeStatus v).err = s.err := by rfl
@[simp] theorem State.writeStatus_cmdovr (v : Word) : (s.writeStatus v).cmdovr = if v.getLsbD 8 then false else s.cmdovr := by rfl
@[simp] theorem State.writeStatus_tvalid (v : Word) : (s.writeStatus v).tvalid = s.tvalid := by rfl
@[simp] theorem State.writeStatus_opa (v : Word) : (s.writeStatus v).opa = s.opa := by rfl
@[simp] theorem State.writeStatus_opb (v : Word) : (s.writeStatus v).opb = s.opb := by rfl
@[simp] theorem State.writeStatus_opn (v : Word) : (s.writeStatus v).opn = s.opn := by rfl
@[simp] theorem State.writeStatus_res (v : Word) : (s.writeStatus v).res = s.res := by rfl
@[simp] theorem State.writeStatus_sLo (v : Word) : (s.writeStatus v).sLo = s.sLo := by rfl
@[simp] theorem State.writeStatus_sHi (v : Word) : (s.writeStatus v).sHi = s.sHi := by rfl
@[simp] theorem State.writeStatus_tLo (v : Word) : (s.writeStatus v).tLo = s.tLo := by rfl
@[simp] theorem State.writeStatus_tHi (v : Word) : (s.writeStatus v).tHi = s.tHi := by rfl
@[simp] theorem State.writeStatus_tcount (v : Word) : (s.writeStatus v).tcount = s.tcount := by rfl
@[simp] theorem State.writeStatus_capr (v : Word) : (s.writeStatus v).capr = s.capr := by rfl
@[simp] theorem State.writeStatus_lcmd (v : Word) : (s.writeStatus v).lcmd = s.lcmd := by rfl
@[simp] theorem State.writeStatus_la (v : Word) : (s.writeStatus v).la = s.la := by rfl
@[simp] theorem State.writeStatus_lb (v : Word) : (s.writeStatus v).lb = s.lb := by rfl
@[simp] theorem State.writeStatus_ln (v : Word) : (s.writeStatus v).ln = s.ln := by rfl
@[simp] theorem State.writeStatus_tab (v : Word) : (s.writeStatus v).tab = s.tab := by rfl
@[simp] theorem State.writeStatus_resets (v : Word) : (s.writeStatus v).resets = s.resets := by rfl
@[simp] theorem State.writeStatus_env (v : Word) : (s.writeStatus v).env = s.env := by rfl
@[simp] theorem State.writeStatus_cap (v : Word) : (s.writeStatus v).cap = s.cap := by rfl
@[simp] theorem State.writeStatus_slot (v : Word) (k : Nat) : (s.writeStatus v).slot k = s.slot k := by rfl

@[simp] theorem State.resetBlock_busy : (s.resetBlock).busy = false := by rfl
@[simp] theorem State.resetBlock_done : (s.resetBlock).done = false := by rfl
@[simp] theorem State.resetBlock_ok : (s.resetBlock).ok = false := by rfl
@[simp] theorem State.resetBlock_err : (s.resetBlock).err = 0 := by rfl
@[simp] theorem State.resetBlock_cmdovr : (s.resetBlock).cmdovr = false := by rfl
@[simp] theorem State.resetBlock_tvalid : (s.resetBlock).tvalid = false := by rfl
@[simp] theorem State.resetBlock_opa : (s.resetBlock).opa = 0 := by rfl
@[simp] theorem State.resetBlock_opb : (s.resetBlock).opb = 0 := by rfl
@[simp] theorem State.resetBlock_opn : (s.resetBlock).opn = 0 := by rfl
@[simp] theorem State.resetBlock_res : (s.resetBlock).res = 0 := by rfl
@[simp] theorem State.resetBlock_sLo : (s.resetBlock).sLo = 0 := by rfl
@[simp] theorem State.resetBlock_sHi : (s.resetBlock).sHi = 0 := by rfl
@[simp] theorem State.resetBlock_tLo : (s.resetBlock).tLo = 0 := by rfl
@[simp] theorem State.resetBlock_tHi : (s.resetBlock).tHi = 0 := by rfl
@[simp] theorem State.resetBlock_tcount : (s.resetBlock).tcount = 0 := by rfl
@[simp] theorem State.resetBlock_capr : (s.resetBlock).capr = s.capr := by rfl
@[simp] theorem State.resetBlock_lcmd : (s.resetBlock).lcmd = 0 := by rfl
@[simp] theorem State.resetBlock_la : (s.resetBlock).la = 0 := by rfl
@[simp] theorem State.resetBlock_lb : (s.resetBlock).lb = 0 := by rfl
@[simp] theorem State.resetBlock_ln : (s.resetBlock).ln = 0 := by rfl
@[simp] theorem State.resetBlock_tab : (s.resetBlock).tab = [] := by rfl
@[simp] theorem State.resetBlock_resets : (s.resetBlock).resets = s.resets + 1 := by rfl
@[simp] theorem State.resetBlock_env : (s.resetBlock).env = s.env := by rfl
@[simp] theorem State.resetBlock_cap : (s.resetBlock).cap = s.cap := by rfl

@[simp] theorem State.setProgram_busy (ops : List HostOp) : (s.setProgram ops).busy = s.busy := by rfl
@[simp] theorem State.setProgram_done (ops : List HostOp) : (s.setProgram ops).done = s.done := by rfl
@[simp] theorem State.setProgram_ok (ops : List HostOp) : (s.setProgram ops).ok = s.ok := by rfl
@[simp] theorem State.setProgram_err (ops : List HostOp) : (s.setProgram ops).err = s.err := by rfl
@[simp] theorem State.setProgram_cmdovr (ops : List HostOp) : (s.setProgram ops).cmdovr = s.cmdovr := by rfl
@[simp] theorem State.setProgram_tvalid (ops : List HostOp) : (s.setProgram ops).tvalid = s.tvalid := by rfl
@[simp] theorem State.setProgram_opa (ops : List HostOp) : (s.setProgram ops).opa = s.opa := by rfl
@[simp] theorem State.setProgram_opb (ops : List HostOp) : (s.setProgram ops).opb = s.opb := by rfl
@[simp] theorem State.setProgram_opn (ops : List HostOp) : (s.setProgram ops).opn = s.opn := by rfl
@[simp] theorem State.setProgram_res (ops : List HostOp) : (s.setProgram ops).res = s.res := by rfl
@[simp] theorem State.setProgram_sLo (ops : List HostOp) : (s.setProgram ops).sLo = s.sLo := by rfl
@[simp] theorem State.setProgram_sHi (ops : List HostOp) : (s.setProgram ops).sHi = s.sHi := by rfl
@[simp] theorem State.setProgram_tLo (ops : List HostOp) : (s.setProgram ops).tLo = s.tLo := by rfl
@[simp] theorem State.setProgram_tHi (ops : List HostOp) : (s.setProgram ops).tHi = s.tHi := by rfl
@[simp] theorem State.setProgram_tcount (ops : List HostOp) : (s.setProgram ops).tcount = s.tcount := by rfl
@[simp] theorem State.setProgram_capr (ops : List HostOp) : (s.setProgram ops).capr = s.capr := by rfl
@[simp] theorem State.setProgram_lcmd (ops : List HostOp) : (s.setProgram ops).lcmd = s.lcmd := by rfl
@[simp] theorem State.setProgram_la (ops : List HostOp) : (s.setProgram ops).la = s.la := by rfl
@[simp] theorem State.setProgram_lb (ops : List HostOp) : (s.setProgram ops).lb = s.lb := by rfl
@[simp] theorem State.setProgram_ln (ops : List HostOp) : (s.setProgram ops).ln = s.ln := by rfl
@[simp] theorem State.setProgram_tab (ops : List HostOp) : (s.setProgram ops).tab = s.tab := by rfl
@[simp] theorem State.setProgram_resets (ops : List HostOp) : (s.setProgram ops).resets = s.resets := by rfl
@[simp] theorem State.setProgram_env_schedule (ops : List HostOp) : (s.setProgram ops).env.schedule = s.env.schedule := by rfl
@[simp] theorem State.setProgram_env_program (ops : List HostOp) : (s.setProgram ops).env.program = ops := by rfl
@[simp] theorem State.setProgram_env_vars (ops : List HostOp) : (s.setProgram ops).env.vars = s.env.vars := by rfl
@[simp] theorem State.setProgram_env_trace (ops : List HostOp) : (s.setProgram ops).env.trace = s.env.trace := by rfl
@[simp] theorem State.setProgram_env_labels (ops : List HostOp) : (s.setProgram ops).env.labels = s.env.labels := by rfl
@[simp] theorem State.setProgram_cap (ops : List HostOp) : (s.setProgram ops).cap = s.cap := by rfl
@[simp] theorem State.setProgram_slot (ops : List HostOp) (k : Nat) : (s.setProgram ops).slot k = s.slot k := by rfl

@[simp] theorem State.setSchedule_busy (ts : List Turn) : (s.setSchedule ts).busy = s.busy := by rfl
@[simp] theorem State.setSchedule_done (ts : List Turn) : (s.setSchedule ts).done = s.done := by rfl
@[simp] theorem State.setSchedule_ok (ts : List Turn) : (s.setSchedule ts).ok = s.ok := by rfl
@[simp] theorem State.setSchedule_err (ts : List Turn) : (s.setSchedule ts).err = s.err := by rfl
@[simp] theorem State.setSchedule_cmdovr (ts : List Turn) : (s.setSchedule ts).cmdovr = s.cmdovr := by rfl
@[simp] theorem State.setSchedule_tvalid (ts : List Turn) : (s.setSchedule ts).tvalid = s.tvalid := by rfl
@[simp] theorem State.setSchedule_opa (ts : List Turn) : (s.setSchedule ts).opa = s.opa := by rfl
@[simp] theorem State.setSchedule_opb (ts : List Turn) : (s.setSchedule ts).opb = s.opb := by rfl
@[simp] theorem State.setSchedule_opn (ts : List Turn) : (s.setSchedule ts).opn = s.opn := by rfl
@[simp] theorem State.setSchedule_res (ts : List Turn) : (s.setSchedule ts).res = s.res := by rfl
@[simp] theorem State.setSchedule_sLo (ts : List Turn) : (s.setSchedule ts).sLo = s.sLo := by rfl
@[simp] theorem State.setSchedule_sHi (ts : List Turn) : (s.setSchedule ts).sHi = s.sHi := by rfl
@[simp] theorem State.setSchedule_tLo (ts : List Turn) : (s.setSchedule ts).tLo = s.tLo := by rfl
@[simp] theorem State.setSchedule_tHi (ts : List Turn) : (s.setSchedule ts).tHi = s.tHi := by rfl
@[simp] theorem State.setSchedule_tcount (ts : List Turn) : (s.setSchedule ts).tcount = s.tcount := by rfl
@[simp] theorem State.setSchedule_capr (ts : List Turn) : (s.setSchedule ts).capr = s.capr := by rfl
@[simp] theorem State.setSchedule_lcmd (ts : List Turn) : (s.setSchedule ts).lcmd = s.lcmd := by rfl
@[simp] theorem State.setSchedule_la (ts : List Turn) : (s.setSchedule ts).la = s.la := by rfl
@[simp] theorem State.setSchedule_lb (ts : List Turn) : (s.setSchedule ts).lb = s.lb := by rfl
@[simp] theorem State.setSchedule_ln (ts : List Turn) : (s.setSchedule ts).ln = s.ln := by rfl
@[simp] theorem State.setSchedule_tab (ts : List Turn) : (s.setSchedule ts).tab = s.tab := by rfl
@[simp] theorem State.setSchedule_resets (ts : List Turn) : (s.setSchedule ts).resets = s.resets := by rfl
@[simp] theorem State.setSchedule_env_schedule (ts : List Turn) : (s.setSchedule ts).env.schedule = ts := by rfl
@[simp] theorem State.setSchedule_env_program (ts : List Turn) : (s.setSchedule ts).env.program = s.env.program := by rfl
@[simp] theorem State.setSchedule_env_vars (ts : List Turn) : (s.setSchedule ts).env.vars = s.env.vars := by rfl
@[simp] theorem State.setSchedule_env_trace (ts : List Turn) : (s.setSchedule ts).env.trace = s.env.trace := by rfl
@[simp] theorem State.setSchedule_env_labels (ts : List Turn) : (s.setSchedule ts).env.labels = s.env.labels := by rfl
@[simp] theorem State.setSchedule_cap (ts : List Turn) : (s.setSchedule ts).cap = s.cap := by rfl
@[simp] theorem State.setSchedule_slot (ts : List Turn) (k : Nat) : (s.setSchedule ts).slot k = s.slot k := by rfl

@[simp] theorem State.setHostVar_busy (x : HostVar) (z : Int) : (s.setHostVar x z).busy = s.busy := by rfl
@[simp] theorem State.setHostVar_done (x : HostVar) (z : Int) : (s.setHostVar x z).done = s.done := by rfl
@[simp] theorem State.setHostVar_ok (x : HostVar) (z : Int) : (s.setHostVar x z).ok = s.ok := by rfl
@[simp] theorem State.setHostVar_err (x : HostVar) (z : Int) : (s.setHostVar x z).err = s.err := by rfl
@[simp] theorem State.setHostVar_cmdovr (x : HostVar) (z : Int) : (s.setHostVar x z).cmdovr = s.cmdovr := by rfl
@[simp] theorem State.setHostVar_tvalid (x : HostVar) (z : Int) : (s.setHostVar x z).tvalid = s.tvalid := by rfl
@[simp] theorem State.setHostVar_opa (x : HostVar) (z : Int) : (s.setHostVar x z).opa = s.opa := by rfl
@[simp] theorem State.setHostVar_opb (x : HostVar) (z : Int) : (s.setHostVar x z).opb = s.opb := by rfl
@[simp] theorem State.setHostVar_opn (x : HostVar) (z : Int) : (s.setHostVar x z).opn = s.opn := by rfl
@[simp] theorem State.setHostVar_res (x : HostVar) (z : Int) : (s.setHostVar x z).res = s.res := by rfl
@[simp] theorem State.setHostVar_sLo (x : HostVar) (z : Int) : (s.setHostVar x z).sLo = s.sLo := by rfl
@[simp] theorem State.setHostVar_sHi (x : HostVar) (z : Int) : (s.setHostVar x z).sHi = s.sHi := by rfl
@[simp] theorem State.setHostVar_tLo (x : HostVar) (z : Int) : (s.setHostVar x z).tLo = s.tLo := by rfl
@[simp] theorem State.setHostVar_tHi (x : HostVar) (z : Int) : (s.setHostVar x z).tHi = s.tHi := by rfl
@[simp] theorem State.setHostVar_tcount (x : HostVar) (z : Int) : (s.setHostVar x z).tcount = s.tcount := by rfl
@[simp] theorem State.setHostVar_capr (x : HostVar) (z : Int) : (s.setHostVar x z).capr = s.capr := by rfl
@[simp] theorem State.setHostVar_lcmd (x : HostVar) (z : Int) : (s.setHostVar x z).lcmd = s.lcmd := by rfl
@[simp] theorem State.setHostVar_la (x : HostVar) (z : Int) : (s.setHostVar x z).la = s.la := by rfl
@[simp] theorem State.setHostVar_lb (x : HostVar) (z : Int) : (s.setHostVar x z).lb = s.lb := by rfl
@[simp] theorem State.setHostVar_ln (x : HostVar) (z : Int) : (s.setHostVar x z).ln = s.ln := by rfl
@[simp] theorem State.setHostVar_tab (x : HostVar) (z : Int) : (s.setHostVar x z).tab = s.tab := by rfl
@[simp] theorem State.setHostVar_resets (x : HostVar) (z : Int) : (s.setHostVar x z).resets = s.resets := by rfl
@[simp] theorem State.setHostVar_env_schedule (x : HostVar) (z : Int) : (s.setHostVar x z).env.schedule = s.env.schedule := by rfl
@[simp] theorem State.setHostVar_env_program (x : HostVar) (z : Int) : (s.setHostVar x z).env.program = s.env.program := by rfl
@[simp] theorem State.setHostVar_env_vars (x : HostVar) (z : Int) : (s.setHostVar x z).env.vars = Assoc.put s.env.vars x z := by rfl
@[simp] theorem State.setHostVar_env_trace (x : HostVar) (z : Int) : (s.setHostVar x z).env.trace = s.env.trace := by rfl
@[simp] theorem State.setHostVar_env_labels (x : HostVar) (z : Int) : (s.setHostVar x z).env.labels = s.env.labels := by rfl
@[simp] theorem State.setHostVar_cap (x : HostVar) (z : Int) : (s.setHostVar x z).cap = s.cap := by rfl
@[simp] theorem State.setHostVar_slot (x : HostVar) (z : Int) (k : Nat) : (s.setHostVar x z).slot k = s.slot k := by rfl

@[simp] theorem State.record_busy (t : BusTransaction) : (s.record t).busy = s.busy := by rfl
@[simp] theorem State.record_done (t : BusTransaction) : (s.record t).done = s.done := by rfl
@[simp] theorem State.record_ok (t : BusTransaction) : (s.record t).ok = s.ok := by rfl
@[simp] theorem State.record_err (t : BusTransaction) : (s.record t).err = s.err := by rfl
@[simp] theorem State.record_cmdovr (t : BusTransaction) : (s.record t).cmdovr = s.cmdovr := by rfl
@[simp] theorem State.record_tvalid (t : BusTransaction) : (s.record t).tvalid = s.tvalid := by rfl
@[simp] theorem State.record_opa (t : BusTransaction) : (s.record t).opa = s.opa := by rfl
@[simp] theorem State.record_opb (t : BusTransaction) : (s.record t).opb = s.opb := by rfl
@[simp] theorem State.record_opn (t : BusTransaction) : (s.record t).opn = s.opn := by rfl
@[simp] theorem State.record_res (t : BusTransaction) : (s.record t).res = s.res := by rfl
@[simp] theorem State.record_sLo (t : BusTransaction) : (s.record t).sLo = s.sLo := by rfl
@[simp] theorem State.record_sHi (t : BusTransaction) : (s.record t).sHi = s.sHi := by rfl
@[simp] theorem State.record_tLo (t : BusTransaction) : (s.record t).tLo = s.tLo := by rfl
@[simp] theorem State.record_tHi (t : BusTransaction) : (s.record t).tHi = s.tHi := by rfl
@[simp] theorem State.record_tcount (t : BusTransaction) : (s.record t).tcount = s.tcount := by rfl
@[simp] theorem State.record_capr (t : BusTransaction) : (s.record t).capr = s.capr := by rfl
@[simp] theorem State.record_lcmd (t : BusTransaction) : (s.record t).lcmd = s.lcmd := by rfl
@[simp] theorem State.record_la (t : BusTransaction) : (s.record t).la = s.la := by rfl
@[simp] theorem State.record_lb (t : BusTransaction) : (s.record t).lb = s.lb := by rfl
@[simp] theorem State.record_ln (t : BusTransaction) : (s.record t).ln = s.ln := by rfl
@[simp] theorem State.record_tab (t : BusTransaction) : (s.record t).tab = s.tab := by rfl
@[simp] theorem State.record_resets (t : BusTransaction) : (s.record t).resets = s.resets := by rfl
@[simp] theorem State.record_env_schedule (t : BusTransaction) : (s.record t).env.schedule = s.env.schedule := by rfl
@[simp] theorem State.record_env_program (t : BusTransaction) : (s.record t).env.program = s.env.program := by rfl
@[simp] theorem State.record_env_vars (t : BusTransaction) : (s.record t).env.vars = s.env.vars := by rfl
@[simp] theorem State.record_env_trace (t : BusTransaction) : (s.record t).env.trace = s.env.trace ++ [t] := by rfl
@[simp] theorem State.record_env_labels (t : BusTransaction) : (s.record t).env.labels = s.env.labels := by rfl
@[simp] theorem State.record_cap (t : BusTransaction) : (s.record t).cap = s.cap := by rfl
@[simp] theorem State.record_slot (t : BusTransaction) (k : Nat) : (s.record t).slot k = s.slot k := by rfl

@[simp] theorem State.popTurn_busy : (s.popTurn).busy = s.busy := by rfl
@[simp] theorem State.popTurn_done : (s.popTurn).done = s.done := by rfl
@[simp] theorem State.popTurn_ok : (s.popTurn).ok = s.ok := by rfl
@[simp] theorem State.popTurn_err : (s.popTurn).err = s.err := by rfl
@[simp] theorem State.popTurn_cmdovr : (s.popTurn).cmdovr = s.cmdovr := by rfl
@[simp] theorem State.popTurn_tvalid : (s.popTurn).tvalid = s.tvalid := by rfl
@[simp] theorem State.popTurn_opa : (s.popTurn).opa = s.opa := by rfl
@[simp] theorem State.popTurn_opb : (s.popTurn).opb = s.opb := by rfl
@[simp] theorem State.popTurn_opn : (s.popTurn).opn = s.opn := by rfl
@[simp] theorem State.popTurn_res : (s.popTurn).res = s.res := by rfl
@[simp] theorem State.popTurn_sLo : (s.popTurn).sLo = s.sLo := by rfl
@[simp] theorem State.popTurn_sHi : (s.popTurn).sHi = s.sHi := by rfl
@[simp] theorem State.popTurn_tLo : (s.popTurn).tLo = s.tLo := by rfl
@[simp] theorem State.popTurn_tHi : (s.popTurn).tHi = s.tHi := by rfl
@[simp] theorem State.popTurn_tcount : (s.popTurn).tcount = s.tcount := by rfl
@[simp] theorem State.popTurn_capr : (s.popTurn).capr = s.capr := by rfl
@[simp] theorem State.popTurn_lcmd : (s.popTurn).lcmd = s.lcmd := by rfl
@[simp] theorem State.popTurn_la : (s.popTurn).la = s.la := by rfl
@[simp] theorem State.popTurn_lb : (s.popTurn).lb = s.lb := by rfl
@[simp] theorem State.popTurn_ln : (s.popTurn).ln = s.ln := by rfl
@[simp] theorem State.popTurn_tab : (s.popTurn).tab = s.tab := by rfl
@[simp] theorem State.popTurn_resets : (s.popTurn).resets = s.resets := by rfl
@[simp] theorem State.popTurn_env_schedule : (s.popTurn).env.schedule = s.env.schedule.tail := by rfl
@[simp] theorem State.popTurn_env_program : (s.popTurn).env.program = s.env.program := by rfl
@[simp] theorem State.popTurn_env_vars : (s.popTurn).env.vars = s.env.vars := by rfl
@[simp] theorem State.popTurn_env_trace : (s.popTurn).env.trace = s.env.trace := by rfl
@[simp] theorem State.popTurn_env_labels : (s.popTurn).env.labels = s.env.labels := by rfl
@[simp] theorem State.popTurn_cap : (s.popTurn).cap = s.cap := by rfl
@[simp] theorem State.popTurn_slot (k : Nat) : (s.popTurn).slot k = s.slot k := by rfl

end Sys2Proof.Machine
end

