-- ==== Sys2Proof/Laws/Arith.lean ====
section
/-! SUPPORT. The laws of one iteration of the extended Euclidean loop and of the exponent loop. -/

namespace Sys2Proof.Machine

/-- One iteration turns the remainders as Euclid does. -/
theorem euclidStep_remainders (e : EuclidRegs) :
    (euclidStep e).r0 = e.r1 ∧ (euclidStep e).r1 = e.r0 % e.r1 := by
  refine ⟨rfl, ?_⟩
  show e.r0 - e.r0 / e.r1 * e.r1 = e.r0 % e.r1
  rw [Nat.mod_def, Nat.mul_comm]

/-- `x * s0 + y * t0 = r0` and `x * s1 + y * t1 = r1` are kept by an iteration (40_gcd_unit.md R99). -/
theorem euclidStep_bezout {x y : Int} {e : EuclidRegs} (h0 : x * e.s0 + y * e.t0 = e.r0)
    (h1 : x * e.s1 + y * e.t1 = e.r1) :
    x * (euclidStep e).s0 + y * (euclidStep e).t0 = (euclidStep e).r0 ∧
    x * (euclidStep e).s1 + y * (euclidStep e).t1 = (euclidStep e).r1 := by
  refine ⟨h1, ?_⟩
  have hle : e.r0 / e.r1 * e.r1 ≤ e.r0 := Nat.div_mul_le_self _ _
  simp only [euclidStep]
  rw [Nat.cast_sub hle, Nat.cast_mul, ← h0, ← h1]
  ring

/-- An iteration keeps the gcd of the remainders. -/
theorem euclidStep_gcd (e : EuclidRegs) :
    Nat.gcd (euclidStep e).r0 (euclidStep e).r1 = Nat.gcd e.r0 e.r1 := by
  rw [(euclidStep_remainders e).1, (euclidStep_remainders e).2, Nat.gcd_comm e.r1,
    ← Nat.gcd_rec, Nat.gcd_comm]

theorem euclidLoop_done {fuel : Nat} {e : EuclidRegs} (h : e.r1 = 0) : euclidLoop fuel e = e := by
  cases fuel <;> simp [euclidLoop, h]

theorem euclidLoop_step {fuel : Nat} {e : EuclidRegs} (h : e.r1 ≠ 0) :
    euclidLoop (fuel + 1) e = euclidLoop fuel (euclidStep e) := by
  simp [euclidLoop, h]

@[simp] theorem powLoop_done (n fuel r base : Nat) : powLoop n fuel r base 0 = r := by
  cases fuel <;> simp [powLoop]

theorem powLoop_step {n fuel r base k : Nat} (h : k ≠ 0) :
    powLoop n (fuel + 1) r base k =
      powLoop n fuel (if k % 2 = 1 then mulMod n r base else r) (mulMod n base base) (k / 2) := by
  simp [powLoop, h]

end Sys2Proof.Machine
end

