-- ==== Sys2Proof/Laws/Memory.lean ====
section
/-! SUPPORT. The sorted map and the table memory: read after write, and that every operation keeps the
canonical form. -/

namespace Sys2Proof.Machine

variable {β : Type}

@[simp] theorem Assoc.find_nil (k : Nat) : Assoc.find ([] : List (Nat × β)) k = none := rfl

/-- A key reads as what was put there last; every other key reads as before. -/
theorem Assoc.find_put (m : List (Nat × β)) (k j : Nat) (e : β) :
    Assoc.find (Assoc.put m k e) j = if j = k then some e else Assoc.find m j := by
  induction m with
  | nil => rfl
  | cons p m ih =>
    obtain ⟨i, f⟩ := p
    simp only [Assoc.put]
    split
    · simp [Assoc.find]
    · split
      · rename_i h
        subst h
        simp only [Assoc.find]
        split <;> rfl
      · rename_i hki
        simp only [Assoc.find, ih]
        by_cases hj : j = i
        · subst hj
          simp [Ne.symm hki]
        · simp [hj]

theorem Assoc.find_some_mem {m : List (Nat × β)} {k : Nat} {e : β} (h : Assoc.find m k = some e) :
    (k, e) ∈ m := by
  induction m with
  | nil => simp at h
  | cons p m ih =>
    obtain ⟨i, f⟩ := p
    simp only [Assoc.find] at h
    split at h
    · simp_all
    · exact List.mem_cons_of_mem _ (ih h)

/-- Sortedness above a bound, taken apart. -/
theorem Assoc.sortedFrom_some_cons (lo k : Nat) (e : β) (m : List (Nat × β)) :
    Assoc.sortedFrom (some lo) ((k, e) :: m) = true ↔
      lo < k ∧ Assoc.sortedFrom (some k) m = true := by
  simp [Assoc.sortedFrom]

theorem Assoc.sortedFrom_weaken {lo lo' : Nat} {m : List (Nat × β)} (h : lo' ≤ lo)
    (hm : Assoc.sortedFrom (some lo) m = true) : Assoc.sortedFrom (some lo') m = true := by
  cases m with
  | nil => rfl
  | cons p m =>
    obtain ⟨k, e⟩ := p
    rw [Assoc.sortedFrom_some_cons] at *
    exact ⟨by omega, hm.2⟩

theorem Assoc.sortedFrom_tail {b : Option Nat} {k : Nat} {e : β} {m : List (Nat × β)}
    (h : Assoc.sortedFrom b ((k, e) :: m) = true) : Assoc.sortedFrom (some k) m = true := by
  cases b with
  | none => exact h
  | some lo => exact ((Assoc.sortedFrom_some_cons lo k e m).1 h).2

/-- Every key of a map sorted above a bound is above the bound. -/
theorem Assoc.lt_of_mem {lo : Nat} {m : List (Nat × β)} (h : Assoc.sortedFrom (some lo) m = true)
    {p : Nat × β} (hp : p ∈ m) : lo < p.1 := by
  induction m generalizing lo with
  | nil => simp at hp
  | cons q m ih =>
    obtain ⟨k, e⟩ := q
    rw [Assoc.sortedFrom_some_cons] at h
    rcases List.mem_cons.1 hp with rfl | hp
    · exact h.1
    · exact Nat.lt_trans h.1 (ih h.2 hp)

/-- In a sorted map a listed pair is what its key reads as. -/
theorem Assoc.find_of_mem {b : Option Nat} {m : List (Nat × β)} (h : Assoc.sortedFrom b m = true)
    {p : Nat × β} (hp : p ∈ m) : Assoc.find m p.1 = some p.2 := by
  induction m generalizing b with
  | nil => simp at hp
  | cons q m ih =>
    obtain ⟨k, e⟩ := q
    have ht := Assoc.sortedFrom_tail h
    rcases List.mem_cons.1 hp with rfl | hp
    · simp [Assoc.find]
    · have hlt := Assoc.lt_of_mem ht hp
      simp only [Assoc.find]
      rw [if_neg (by omega)]
      exact ih ht hp

theorem Assoc.find_eq_none {lo k : Nat} {m : List (Nat × β)} (h : Assoc.sortedFrom (some lo) m = true)
    (hk : k ≤ lo) : Assoc.find m k = none := by
  cases hf : Assoc.find m k with
  | none => rfl
  | some e =>
    have := Assoc.lt_of_mem h (Assoc.find_some_mem hf)
    simp at this
    omega

theorem Assoc.put_sortedFrom {b : Option Nat} {m : List (Nat × β)} {k : Nat} {e : β}
    (h : Assoc.sortedFrom b m = true) (hk : ∀ lo, b = some lo → lo < k) :
    Assoc.sortedFrom b (Assoc.put m k e) = true := by
  induction m generalizing b with
  | nil =>
    cases b with
    | none => rfl
    | some lo => simpa [Assoc.put, Assoc.sortedFrom] using hk lo rfl
  | cons q m ih =>
    obtain ⟨j, f⟩ := q
    have ht := Assoc.sortedFrom_tail h
    have key : ∀ {m' : List (Nat × β)} {i : Nat} {g : β}, (∀ lo, b = some lo → lo < i) →
        Assoc.sortedFrom (some i) m' = true → Assoc.sortedFrom b ((i, g) :: m') = true := by
      intro m' i g hb hm
      cases b with
      | none => exact hm
      | some lo => exact (Assoc.sortedFrom_some_cons lo i g m').2 ⟨hb lo rfl, hm⟩
    have hj : ∀ lo, b = some lo → lo < j := by
      rintro lo rfl
      exact ((Assoc.sortedFrom_some_cons lo j f m).1 h).1
    simp only [Assoc.put]
    split
    · exact key hk ((Assoc.sortedFrom_some_cons k j f m).2 ⟨‹_›, ht⟩)
    · split
      · rename_i hkj
        subst hkj
        exact key hk ht
      · refine key hj (ih ht ?_)
        rintro lo hlo
        cases hlo
        omega

theorem Assoc.erase_sortedFrom {b : Option Nat} {m : List (Nat × β)} {k : Nat}
    (h : Assoc.sortedFrom b m = true) : Assoc.sortedFrom b (Assoc.erase m k) = true := by
  induction m generalizing b with
  | nil => exact h
  | cons q m ih =>
    obtain ⟨j, f⟩ := q
    have ht := Assoc.sortedFrom_tail h
    simp only [Assoc.erase]
    split
    · cases b with
      | none =>
        cases m with
        | nil => rfl
        | cons r m => exact Assoc.sortedFrom_tail ht
      | some lo =>
        have := ((Assoc.sortedFrom_some_cons lo j f m).1 h).1
        exact Assoc.sortedFrom_weaken (by omega) ht
    · cases b with
      | none => exact ih ht
      | some lo =>
        exact (Assoc.sortedFrom_some_cons lo j f _).2
          ⟨((Assoc.sortedFrom_some_cons lo j f m).1 h).1, ih ht⟩

/-- An erased key reads as not listed; every other key reads as before. -/
theorem Assoc.find_erase {b : Option Nat} {m : List (Nat × β)} (h : Assoc.sortedFrom b m = true)
    (k j : Nat) : Assoc.find (Assoc.erase m k) j = if j = k then none else Assoc.find m j := by
  induction m generalizing b with
  | nil => simp [Assoc.erase]
  | cons q m ih =>
    obtain ⟨i, f⟩ := q
    have ht := Assoc.sortedFrom_tail h
    simp only [Assoc.erase]
    split
    · rename_i hki
      subst hki
      simp only [Assoc.find]
      split
      · rename_i hj
        subst hj
        exact Assoc.find_eq_none ht (Nat.le_refl _)
      · rfl
    · simp only [Assoc.find, ih ht]
      split
      · rename_i hj
        subst hj
        rw [if_neg]
        omega
      · rfl

theorem Assoc.mem_put {m : List (Nat × β)} {k : Nat} {e : β} {p : Nat × β}
    (h : p ∈ Assoc.put m k e) : p = (k, e) ∨ p ∈ m := by
  induction m with
  | nil => simpa [Assoc.put] using h
  | cons q m ih =>
    obtain ⟨j, f⟩ := q
    simp only [Assoc.put] at h
    split at h
    · simpa using h
    · split at h
      · rcases List.mem_cons.1 h with h | h
        · exact .inl h
        · exact .inr (List.mem_cons_of_mem _ h)
      · rcases List.mem_cons.1 h with h | h
        · exact .inr (by simp [h])
        · rcases ih h with h | h
          · exact .inl h
          · exact .inr (List.mem_cons_of_mem _ h)

theorem Assoc.mem_erase {m : List (Nat × β)} {k : Nat} {p : Nat × β} (h : p ∈ Assoc.erase m k) :
    p ∈ m := by
  induction m with
  | nil => exact h
  | cons q m ih =>
    obtain ⟨j, f⟩ := q
    simp only [Assoc.erase] at h
    split at h
    · exact List.mem_cons_of_mem _ h
    · rcases List.mem_cons.1 h with h | h
      · simp [h]
      · exact List.mem_cons_of_mem _ (ih h)

/-- Putting at a key that is not listed lists exactly one key more. -/
theorem Assoc.length_put {m : List (Nat × β)} {k : Nat} {e : β} (h : Assoc.find m k = none) :
    (Assoc.put m k e).length = m.length + 1 := by
  induction m with
  | nil => rfl
  | cons q m ih =>
    obtain ⟨j, f⟩ := q
    simp only [Assoc.find] at h
    split at h
    · cases h
    · rename_i hkj
      simp only [Assoc.put]
      split <;> simp [ih h]

/-! ## The table memory -/

theorem Memory.wf_iff (m : Memory) :
    Memory.wf m = true ↔ Assoc.sortedFrom none m = true ∧ ∀ p ∈ m, p.2 ≠ Slot.empty := by
  simp [Memory.wf]

@[simp] theorem Memory.wf_nil : Memory.wf [] = true := rfl

/-- Writing a slot keeps the canonical form. -/
theorem Memory.wf_write {m : Memory} (h : Memory.wf m = true) (k : Nat) (e : Slot) :
    Memory.wf (m.write k e) = true := by
  rw [Memory.wf_iff] at *
  unfold Memory.write
  split
  · exact ⟨Assoc.erase_sortedFrom h.1, fun p hp => h.2 p (Assoc.mem_erase hp)⟩
  · refine ⟨Assoc.put_sortedFrom h.1 (by simp), fun p hp => ?_⟩
    rcases Assoc.mem_put hp with rfl | hp
    · assumption
    · exact h.2 p hp

/-- Reading the table memory after a write, as the entry listed at an index. -/
theorem Memory.find_write {m : Memory} (h : Memory.wf m = true) (k j : Nat) (e : Slot) :
    Assoc.find (m.write k e) j =
      if j = k then (if e = Slot.empty then none else some e) else Assoc.find m j := by
  rw [Memory.wf_iff] at h
  unfold Memory.write
  split
  · rw [Assoc.find_erase h.1]
  · rw [Assoc.find_put]

/-- The table memory after reset has the canonical form. -/
theorem Memory.wf_reset : Memory.wf State.reset.tab = true := rfl

theorem Memory.wf_setSlot {s : State} (h : Memory.wf s.tab = true) (k : Nat) (e : Slot) :
    Memory.wf (s.setSlot k e).tab = true := Memory.wf_write h k e

theorem Memory.wf_clearTable (s : State) : Memory.wf s.clearTable.tab = true := rfl

theorem Memory.wf_resetBlock (s : State) : Memory.wf s.resetBlock.tab = true := rfl

/-- While TVALID = 1 a written slot reads as what was written, and every other slot as before. -/
theorem State.slot_setSlot {s : State} (hw : Memory.wf s.tab = true) (hv : s.tvalid = true)
    (k j : Nat) (e : Slot) : (s.setSlot k e).slot j = if j = k then e else s.slot j := by
  unfold State.slot State.unlistedSlot
  simp only [State.setSlot_tab, Memory.find_write hw, State.setSlot_tvalid, State.setSlot_resets, hv]
  by_cases hj : j = k
  · by_cases he : e = Slot.empty <;> simp [hj, he]
  · simp [hj]

/-- After TCLR's clearing every slot is the empty slot. -/
@[simp] theorem State.slot_clearTable (s : State) (k : Nat) : s.clearTable.slot k = Slot.empty := rfl

/-- The high part of a concatenation. -/
theorem extract_append_high {n m : Nat} (x : BitVec n) (r : BitVec m) :
    (x ++ r).extractLsb' m n = x := by
  apply BitVec.eq_of_getLsbD_eq
  intro i hi
  simp [BitVec.getLsbD_append, hi]

/-- The low part of a concatenation. -/
theorem extract_append_low {n m : Nat} (x : BitVec n) (r : BitVec m) :
    (x ++ r).extractLsb' 0 m = r := by
  apply BitVec.eq_of_getLsbD_eq
  intro i hi
  simp [BitVec.getLsbD_append, hi]

/-- A slot's 64 bits give the slot back (20_memory.md R61). -/
@[simp] theorem Slot.ofBits_toBits (e : Slot) : Slot.ofBits e.toBits = e := by
  obtain ⟨x, r⟩ := e
  exact congrArg₂ Slot.mk (extract_append_high x r) (extract_append_low x r)

end Sys2Proof.Machine
end

