-- ==== Sys2Proof/Laws/Ops.lean ====
section
/-! SUPPORT. For each shared operation over the table, what it answers, said once: the walk to an empty
slot, the walk to a residue, and the lookup. -/

namespace Sys2Proof.Machine

variable {s : State}

/-- No error code is 0, and none is above 5 (60_exceptions.md R141). -/
theorem ErrCode.code_range (c : ErrCode) : c.code ≠ 0 ∧ c.code.toNat ≤ 5 := by
  cases c <;> decide

/-- One step of a walk stays on the walk's positions. -/
theorem probe_next (k i cap : Nat) : ((k + 1) % cap + i) % cap = (k + (i + 1)) % cap := by
  rw [Nat.mod_add_mod]
  congr 1
  omega

/-- The walk ends at the first empty slot. -/
theorem State.findEmpty_of_first {fuel k i : Nat} (hk : k < s.cap) (hi : i < fuel)
    (hfull : ∀ j < i, (s.slot ((k + j) % s.cap)).res ≠ 0)
    (hempty : (s.slot ((k + i) % s.cap)).res = 0) :
    s.findEmpty fuel k = some ((k + i) % s.cap) := by
  induction fuel generalizing k i with
  | zero => omega
  | succ fuel ih =>
    have hk0 : (k + 0) % s.cap = k := by simpa using Nat.mod_eq_of_lt hk
    unfold State.findEmpty
    cases i with
    | zero =>
      rw [hk0] at hempty ⊢
      simp [hempty]
    | succ i =>
      have h0 := hfull 0 (by omega)
      rw [hk0] at h0
      rw [if_neg h0]
      have hlt : (k + 1) % s.cap < s.cap := Nat.mod_lt _ (by omega)
      have := ih hlt (i := i) (by omega)
        (fun j hj => by rw [probe_next]; exact hfull (j + 1) (by omega))
        (by rw [probe_next]; exact hempty)
      rw [this, probe_next]

/-- The walk answers nothing exactly when every probed slot is filled. -/
theorem State.findEmpty_eq_none {fuel k : Nat} (hk : k < s.cap) :
    s.findEmpty fuel k = none ↔ ∀ i < fuel, (s.slot ((k + i) % s.cap)).res ≠ 0 := by
  induction fuel generalizing k with
  | zero => simp [State.findEmpty]
  | succ fuel ih =>
    have hk0 : (k + 0) % s.cap = k := by simpa using Nat.mod_eq_of_lt hk
    have hlt : (k + 1) % s.cap < s.cap := Nat.mod_lt _ (by omega)
    unfold State.findEmpty
    constructor
    · intro h i hi
      split at h
      · cases h
      · cases i with
        | zero => rwa [hk0]
        | succ i =>
          rw [← probe_next]
          exact (ih hlt).1 h i (by omega)
    · intro h
      have h0 := h 0 (by omega)
      rw [hk0] at h0
      rw [if_neg h0, ih hlt]
      intro i hi
      rw [probe_next]
      exact h (i + 1) (by omega)

/-- What the walk to an empty slot answers: the first empty slot of the walk. -/
theorem State.findEmpty_eq_some {fuel k j : Nat} (hk : k < s.cap)
    (h : s.findEmpty fuel k = some j) :
    ∃ i < fuel, j = (k + i) % s.cap ∧ (s.slot j).res = 0 ∧
      ∀ i' < i, (s.slot ((k + i') % s.cap)).res ≠ 0 := by
  induction fuel generalizing k with
  | zero => simp [State.findEmpty] at h
  | succ fuel ih =>
    have hk0 : (k + 0) % s.cap = k := by simpa using Nat.mod_eq_of_lt hk
    have hlt : (k + 1) % s.cap < s.cap := Nat.mod_lt _ (by omega)
    unfold State.findEmpty at h
    split at h
    · cases h
      exact ⟨0, by omega, hk0.symm, ‹_›, by omega⟩
    · obtain ⟨i, hi, hj, he, hf⟩ := ih hlt h
      refine ⟨i + 1, by omega, by rw [hj, probe_next], he, ?_⟩
      intro i' hi'
      cases i' with
      | zero => rwa [hk0]
      | succ i' =>
        rw [← probe_next]
        exact hf i' (by omega)

/-- TLKP's walk finds a residue at the first position that holds it, where the positions before it hold
other residues. -/
theorem State.findResidue_of_first {r : Word} {fuel k i : Nat} (hk : k < s.cap) (hi : i < fuel)
    (hbefore : ∀ j < i, (s.slot ((k + j) % s.cap)).res ≠ 0 ∧ (s.slot ((k + j) % s.cap)).res ≠ r)
    (hr : r ≠ 0) (hhit : (s.slot ((k + i) % s.cap)).res = r) :
    s.findResidue r fuel k = some (s.slot ((k + i) % s.cap)).exp := by
  induction fuel generalizing k i with
  | zero => omega
  | succ fuel ih =>
    have hk0 : (k + 0) % s.cap = k := by simpa using Nat.mod_eq_of_lt hk
    unfold State.findResidue
    cases i with
    | zero =>
      rw [hk0] at hhit ⊢
      rw [if_neg (by rw [hhit]; exact hr), if_pos hhit]
    | succ i =>
      have h0 := hbefore 0 (by omega)
      rw [hk0] at h0
      rw [if_neg h0.1, if_neg h0.2]
      have hlt : (k + 1) % s.cap < s.cap := Nat.mod_lt _ (by omega)
      have := ih hlt (i := i) (by omega)
        (fun j hj => by rw [probe_next]; exact hbefore (j + 1) (by omega))
        (by rw [probe_next]; exact hhit)
      rw [this, probe_next]

/-- What TLKP's walk answers when it answers an exponent: the first position that holds the residue, with
the positions before it filled by others. -/
theorem State.findResidue_eq_some {r x : Word} {fuel k : Nat} (hk : k < s.cap)
    (h : s.findResidue r fuel k = some x) :
    ∃ i < fuel, (s.slot ((k + i) % s.cap)).res = r ∧ (s.slot ((k + i) % s.cap)).exp = x ∧ r ≠ 0 ∧
      ∀ j < i, (s.slot ((k + j) % s.cap)).res ≠ 0 ∧ (s.slot ((k + j) % s.cap)).res ≠ r := by
  induction fuel generalizing k with
  | zero => simp [State.findResidue] at h
  | succ fuel ih =>
    have hk0 : (k + 0) % s.cap = k := by simpa using Nat.mod_eq_of_lt hk
    have hlt : (k + 1) % s.cap < s.cap := Nat.mod_lt _ (by omega)
    unfold State.findResidue at h
    split at h
    · cases h
    · rename_i hne
      split at h
      · rename_i heq
        cases h
        exact ⟨0, by omega, by rw [hk0, heq], by rw [hk0], by rw [← heq]; exact hne, by omega⟩
      · rename_i hner
        obtain ⟨i, hi, hh, hx, hr, hb⟩ := ih hlt h
        rw [probe_next] at hh hx
        refine ⟨i + 1, by omega, hh, hx, hr, ?_⟩
        intro j hj
        cases j with
        | zero => rw [hk0]; exact ⟨hne, hner⟩
        | succ j =>
          rw [← probe_next]
          exact hb j (by omega)

/-- What TLKP's walk means by no answer: an empty slot comes before any match, or no probed slot is empty
or holds the residue. -/
theorem State.findResidue_eq_none {r : Word} {fuel k : Nat} (hk : k < s.cap)
    (h : s.findResidue r fuel k = none) :
    (∃ i < fuel, (s.slot ((k + i) % s.cap)).res = 0 ∧
      ∀ j < i, (s.slot ((k + j) % s.cap)).res ≠ 0 ∧ (s.slot ((k + j) % s.cap)).res ≠ r) ∨
    ∀ i < fuel, (s.slot ((k + i) % s.cap)).res ≠ 0 ∧ (s.slot ((k + i) % s.cap)).res ≠ r := by
  induction fuel generalizing k with
  | zero => exact .inr (by omega)
  | succ fuel ih =>
    have hk0 : (k + 0) % s.cap = k := by simpa using Nat.mod_eq_of_lt hk
    have hlt : (k + 1) % s.cap < s.cap := Nat.mod_lt _ (by omega)
    unfold State.findResidue at h
    split at h
    · rename_i he
      exact .inl ⟨0, by omega, by rw [hk0, he], by omega⟩
    · rename_i hne
      split at h
      · cases h
      · rename_i hner
        have step : ∀ {i : Nat}, (∀ j < i, (s.slot (((k + 1) % s.cap + j) % s.cap)).res ≠ 0 ∧
            (s.slot (((k + 1) % s.cap + j) % s.cap)).res ≠ r) → ∀ j < i + 1,
            (s.slot ((k + j) % s.cap)).res ≠ 0 ∧ (s.slot ((k + j) % s.cap)).res ≠ r := by
          intro i hb j hj
          cases j with
          | zero => rw [hk0]; exact ⟨hne, hner⟩
          | succ j =>
            rw [← probe_next]
            exact hb j (by omega)
        rcases ih hlt h with ⟨i, hi, he, hb⟩ | hall
        · rw [probe_next] at he
          exact .inl ⟨i + 1, by omega, he, step hb⟩
        · exact .inr (step hall)

/-- The home slot is a slot, wherever the capacity is not 0. -/
theorem State.homeSlot_lt (h : 0 < s.cap) (r : Nat) : s.homeSlot r < s.cap := Nat.mod_lt _ h

/-- Residue 0 is never present. -/
@[simp] theorem State.lookup_zero : s.lookup 0#32 = none := by simp [State.lookup]

/-- What a lookup means by an exponent, over the residue's probe sequence. -/
theorem State.lookup_eq_some {r x : Word} (hc : 0 < s.cap) (h : s.lookup r = some x) :
    ∃ i < s.cap, (s.slot (s.probe r.toNat i)).res = r ∧ (s.slot (s.probe r.toNat i)).exp = x ∧
      r ≠ 0 ∧ ∀ j < i, (s.slot (s.probe r.toNat j)).res ≠ 0 ∧
        (s.slot (s.probe r.toNat j)).res ≠ r := by
  unfold State.lookup at h
  split at h
  · cases h
  · exact State.findResidue_eq_some (State.homeSlot_lt hc _) h

/-- A residue at a position of its probe sequence, with other residues before it, is found there. -/
theorem State.lookup_of_first {r : Word} {i : Nat} (hi : i < s.cap) (hr : r ≠ 0)
    (hbefore : ∀ j < i, (s.slot (s.probe r.toNat j)).res ≠ 0 ∧
      (s.slot (s.probe r.toNat j)).res ≠ r)
    (hhit : (s.slot (s.probe r.toNat i)).res = r) :
    s.lookup r = some (s.slot (s.probe r.toNat i)).exp := by
  unfold State.lookup
  rw [if_neg hr]
  exact State.findResidue_of_first (State.homeSlot_lt (by omega) _) hi hbefore hr hhit

end Sys2Proof.Machine
end

