-- ==== Sys2Proof/Laws/PerInstr.lean ====
section
/-! SUPPORT. Statements about every command, one lemma per constructor: the decoder reads back what the
encoder writes, from the word and from its bytes (30_encoding.md R78, R79). -/

namespace Sys2Proof.Laws.DecodeEncode

/-- The encoder's word decodes to the command, its bytes too, and its OPCODE is the map's. -/
def Statement (i : Instr) : Prop :=
  i.wellFormed = true → decode (encode i) = .ok i ∧ decodeBytes (bytesOfWord (encode i)) = some i ∧
    opcodeField (encode i) = opcodeOf i ∧ reservedField (encode i) = 0

theorem gcd : Statement .gcd := fun _ => by decide
theorem xgcd : Statement .xgcd := fun _ => by decide
theorem modinv : Statement .modinv := fun _ => by decide
theorem modpow : Statement .modpow := fun _ => by decide
theorem tclr : Statement .tclr := fun _ => by decide
theorem tins : Statement .tins := fun _ => by decide
theorem tlkp : Statement .tlkp := fun _ => by decide

end Sys2Proof.Laws.DecodeEncode
end

