-- ==== Sys2Proof/Laws/Step.lean ====
section
/-! SUPPORT. What a host write, a host operation and a step can do, each said once. -/

namespace Sys2Proof.Machine

/-- Every write effect of the window. -/
theorem busWrite_cases (off : Nat) (v : Word) (s : State) :
    (off = 0x00 ∧ s.busy = true ∧ busWrite off v s = s.dropCmd) ∨
    (off = 0x00 ∧ s.busy = false ∧ busWrite off v s = s.accept v) ∨
    (off = 0x04 ∧ busWrite off v s = s.writeStatus v) ∨
    (off = 0x08 ∧ busWrite off v s = { s with opa := v }) ∨
    (off = 0x0C ∧ busWrite off v s = { s with opb := v }) ∨
    (off = 0x10 ∧ busWrite off v s = { s with opn := v }) ∨
    (off ≠ 0x00 ∧ off ≠ 0x04 ∧ off ≠ 0x08 ∧ off ≠ 0x0C ∧ off ≠ 0x10 ∧ busWrite off v s = s) := by
  by_cases h0 : off = 0x00
  · subst h0
    cases hb : s.busy <;> simp [busWrite, busRegAt, State.writeReg, hb]
  by_cases h1 : off = 0x04
  · subst h1
    simp [busWrite, busRegAt, State.writeReg]
  by_cases h2 : off = 0x08
  · subst h2
    simp [busWrite, busRegAt, State.writeReg]
  by_cases h3 : off = 0x0C
  · subst h3
    simp [busWrite, busRegAt, State.writeReg]
  by_cases h4 : off = 0x10
  · subst h4
    simp [busWrite, busRegAt, State.writeReg]
  have hs : busWrite off v s = s := by
    simp only [busWrite, busRegAt, h0, h1, h2, h3, h4, if_false]
    split_ifs <;> rfl
  simp [h0, h1, h2, h3, h4, hs]

/-- No host write touches the host's side. -/
@[simp] theorem busWrite_env (off : Nat) (v : Word) (s : State) : (busWrite off v s).env = s.env := by
  rcases busWrite_cases off v s with
    ⟨-, -, h⟩ | ⟨-, -, h⟩ | ⟨-, h⟩ | ⟨-, h⟩ | ⟨-, h⟩ | ⟨-, h⟩ | ⟨-, -, -, -, -, h⟩ <;> simp [h]

/-- The invariant is about the block: no change of the host's side touches it. -/
theorem invariant_setEnv {s : State} (h : Invariant s) (e : Env) : Invariant { s with env := e } := h

@[simp] theorem invariant_setProgram (s : State) (ops : List HostOp) :
    Invariant (s.setProgram ops) ↔ Invariant s := Iff.rfl

@[simp] theorem invariant_setSchedule (s : State) (ts : List Turn) :
    Invariant (s.setSchedule ts) ↔ Invariant s := Iff.rfl

@[simp] theorem invariant_popTurn (s : State) : Invariant s.popTurn ↔ Invariant s := Iff.rfl

@[simp] theorem invariant_setHostVar (s : State) (x : HostVar) (z : Int) :
    Invariant (s.setHostVar x z) ↔ Invariant s := Iff.rfl

@[simp] theorem invariant_record (s : State) (t : BusTransaction) :
    Invariant (s.record t) ↔ Invariant s := Iff.rfl

/-- What one host operation can do. -/
theorem runHostOp_cases {op : HostOp} {rest : List HostOp} {s t : State}
    (h : runHostOp op rest s = .next t) :
    (∃ x width off, op = .read x width off ∧ admitted width off = true ∧
      t = ((s.setProgram rest).setHostVar x (busRead off s).toNat).record
        { dir := .read, off := off, value := busRead off s }) ∨
    (∃ width off v, op = .write width off v ∧ admitted width off = true ∧
      t = (busWrite off (s.hostValue v) (s.setProgram rest)).record
        { dir := .write, off := off, value := s.hostValue v }) ∨
    (op = .wait ∧
      t = ((s.setProgram (if (busRead 0x04 s).getLsbD 0 then .wait :: rest else rest)).setHostVar
        hostVarT (busRead 0x04 s).toNat).record { dir := .read, off := 0x04, value := busRead 0x04 s }) ∨
    (∃ x e, op = .host x e ∧ t = (s.setProgram rest).setHostVar x (s.hostExpr e)) ∨
    (∃ c l, op = .goto c l ∧
      t = s.setProgram (if s.hostCond c then s.hostLabel l else rest)) := by
  cases op with
  | read x width off =>
    simp only [runHostOp] at h
    split at h
    · exact .inl ⟨x, width, off, rfl, ‹_›, by cases h; rfl⟩
    · cases h
  | write width off v =>
    simp only [runHostOp] at h
    split at h
    · exact .inr (.inl ⟨width, off, v, rfl, ‹_›, by cases h; rfl⟩)
    · cases h
  | wait =>
    simp only [runHostOp] at h
    exact .inr (.inr (.inl ⟨rfl, by cases h; rfl⟩))
  | host x e =>
    simp only [runHostOp] at h
    exact .inr (.inr (.inr (.inl ⟨x, e, rfl, by cases h; rfl⟩)))
  | goto c l =>
    simp only [runHostOp] at h
    exact .inr (.inr (.inr (.inr ⟨c, l, rfl, by cases h; rfl⟩)))

/-- What one step can do. -/
theorem step_cases {s t : State} (h : step s = .next t) :
    (s.turn = .reset ∧ t = s.popTurn.resetBlock) ∨
    (s.turn = .engine ∧ s.busy = false ∧ t = s.popTurn) ∨
    (∃ i, s.turn = .engine ∧ s.busy = true ∧ decode s.lcmd = .ok i ∧ exec i s.popTurn = .next t) ∨
    (∃ e, s.turn = .engine ∧ s.busy = true ∧ decode s.lcmd = .error e ∧
      t = s.popTurn.raiseErr (ErrCode.ofDecode e)) ∨
    (s.turn = .host ∧ s.env.program = [] ∧ t = s.popTurn) ∨
    (∃ op rest, s.turn = .host ∧ s.env.program = op :: rest ∧
      runHostOp op rest s.popTurn = .next t) := by
  unfold step takeTurn at h
  split at h
  · unfold hostTurn at h
    simp only [State.popTurn_env_program] at h
    split at h
    · exact .inr (.inr (.inr (.inr (.inl ⟨‹_›, ‹_›, by cases h; rfl⟩))))
    · exact .inr (.inr (.inr (.inr (.inr ⟨_, _, ‹_›, ‹_›, h⟩))))
  · unfold engineTurn at h
    simp only [State.popTurn_busy] at h
    by_cases hb : s.busy = true
    · rw [if_pos hb] at h
      unfold completion at h
      simp only [State.popTurn_lcmd] at h
      split at h
      · exact .inr (.inr (.inl ⟨_, ‹_›, hb, ‹_›, h⟩))
      · exact .inr (.inr (.inr (.inl ⟨_, ‹_›, hb, ‹_›, by cases h; rfl⟩)))
    · rw [if_neg hb] at h
      exact .inr (.inl ⟨‹_›, by simpa using hb, by cases h; rfl⟩)
  · exact .inl ⟨‹_›, by cases h; rfl⟩

end Sys2Proof.Machine
end

