-- ==== Sys2Proof/Tests/Slice0.lean ====
section
/-! SUPPORT. Tests of the model on words and values written out from the spec (30_encoding.md R78,
95_test_vectors.md), and, for every statement of Certificates/Slice0/Obligations.lean that has hypotheses, a
concrete state and operands that meet them all (the theorems named witness_…). -/

open Sys2Proof Sys2Proof.Machine

namespace Sys2Proof.Tests

/-! ## Helpers -/

/-- A field of the next state, or `none` at a stop. -/
def field {α : Type} (o : Host.Outcome State Fault Refusal) (f : State → α) : Option α :=
  match o with
  | .next t => some (f t)
  | .fault _ => none
  | .refused _ => none

/-- The fault of a stop. -/
def faultOf (o : Host.Outcome State Fault Refusal) : Option Fault :=
  match o with
  | .next _ => none
  | .fault r => some r
  | .refused _ => none

theorem next_of_field {α : Type} {o : Host.Outcome State Fault Refusal} {f : State → α} {v : α}
    (h : field o f = some v) : ∃ t, o = .next t ∧ f t = v := by
  cases o with
  | next t => exact ⟨t, rfl, Option.some.inj h⟩
  | fault r => cases h
  | refused r => cases h

theorem fault_of_faultOf {o : Host.Outcome State Fault Refusal} {r : Fault}
    (h : faultOf o = some r) : o = .fault r := by
  cases o with
  | next t => cases h
  | fault r => exact congrArg _ (Option.some.inj h)
  | refused r => cases h

/-- After reset, with three latched operands. -/
def latched (a b n : Word) : State := { State.reset with la := a, lb := b, ln := n }

/-- The CAP = 32 test configuration (00_scope.md R6) with a valid table and a latched residue and
exponent. -/
def small (m : Memory) (r x : Word) : State :=
  { latched r x 0 with capr := 32, tvalid := true, tab := m, tcount := BitVec.ofNat 32 m.length }

/-- Slots 5 and 31 filled. -/
def twoSlots : Memory := [(5, { exp := 0, res := 5 }), (31, { exp := 2, res := 31 })]

/-- All 32 slots filled, slot k by residue 32 + k. -/
def fullTable : Memory :=
  (List.range 32).map (fun k => (k, { exp := 0, res := BitVec.ofNat 32 (32 + k) }))

/-- A command in progress, with a schedule and a host program. -/
def running (w : Word) (ts : List Turn) (ops : List HostOp) (s : State) : State :=
  { s with lcmd := w, busy := true, env := { s.env with schedule := ts, program := ops } }

/-- An idle engine and a host program. -/
def hosted (ts : List Turn) (ops : List HostOp) (s : State) : State :=
  { s with env := { s.env with schedule := ts, program := ops } }

/-! ## Decoding: words written out bit by bit from the encodings of opcode_table.json -/

theorem test_decode_gcd : decode 0b00000000000000000000000000000001#32 = .ok .gcd := by decide
theorem test_decode_xgcd : decode 0b00000000000000000000000000000010#32 = .ok .xgcd := by decide
theorem test_decode_modinv : decode 0b00000000000000000000000000000011#32 = .ok .modinv := by decide
theorem test_decode_modpow : decode 0b00000000000000000000000000000100#32 = .ok .modpow := by decide
theorem test_decode_tclr : decode 0b00000000000000000000000000010000#32 = .ok .tclr := by decide
theorem test_decode_tins : decode 0b00000000000000000000000000010001#32 = .ok .tins := by decide
theorem test_decode_tlkp : decode 0b00000000000000000000000000010010#32 = .ok .tlkp := by decide

/-- 95_test_vectors.md 2.6. -/
theorem test_decode_illegal :
    [0x00000000#32, 0x00000005#32, 0x00000013#32, 0x000000FF#32, 0xFFFFFFFF#32].all
      (fun w => decide (decode w = .error .illegalOpcode)) = true := by decide
theorem test_decode_reserved :
    [0x00000104#32, 0x00000111#32, 0x80000011#32].all
      (fun w => decide (decode w = .error .reservedBits)) = true := by decide
theorem test_decode_table_word : decodeTableWord 32 0x11 = some .tins := by decide
theorem test_decode_table_word_none : decodeTableWord 32 0x111 = none := by decide
/-- Byte order, 20_memory.md R54: the opcode is in the byte at the lowest address. -/
theorem test_decode_bytes : decodeBytes [0x12#8, 0#8, 0#8, 0#8] = some .tlkp := by decide
theorem test_decode_bytes_short : decodeBytes [0x12#8, 0#8] = none := by decide

/-! ## Well-formedness: one ill-formed statement for each check (30_encoding.md R86) -/

theorem test_instr_wellFormed : Instr.tins.wellFormed = true := by decide
theorem test_illformed_wr : (Hasm.wr .opa (.num (2 ^ 32))).wellFormed = false := by decide
theorem test_illformed_host : (Hasm.host 1 (.add (.var 1) (.lit (2 ^ 32)))).wellFormed = false := by decide
theorem test_illformed_goto : (Hasm.goto (.lt (.var 1) (.lit (2 ^ 32))) 0).wellFormed = false := by decide
/-- A label that no line has, and one that two lines have. -/
theorem test_illformed_labels : assemble [.goto .always 3] = none ∧
    assemble [.label 3, .label 3] = none := by decide
theorem test_illformed_gcd : (Hasm.gcd (.num 1) (.num (2 ^ 32))).wellFormed = false := by decide
theorem test_illformed_xgcd : (Hasm.xgcd (.num (2 ^ 32)) (.num 1)).wellFormed = false := by decide
theorem test_illformed_modinv : (Hasm.modinv (.num 1) (.num (2 ^ 32))).wellFormed = false := by decide
theorem test_illformed_modpow :
    (Hasm.modpow (.num 1) (.num (2 ^ 32)) (.num 1)).wellFormed = false := by decide
theorem test_illformed_tins : (Hasm.tins (.num 1) (.num (2 ^ 32))).wellFormed = false := by decide
theorem test_illformed_tlkp : (Hasm.tlkp (.num (2 ^ 32))).wellFormed = false := by decide
theorem test_widest_number : (Hasm.tlkp (.num 0xFFFFFFFF)).wellFormed = true := by decide
/-- The expansion of `TINS 5, 0`, 95_test_vectors.md P3. -/
theorem test_assemble_tins : assemble [.tins (.num 5) (.num 0)] =
    some { ops := [.write .w32 0x08 (.lit 5), .write .w32 0x0C (.lit 0),
      .write .w32 0x00 (.lit 0x11#32), .wait], labels := [] } := by decide
/-- A loop as in 95_test_vectors.md P4: the label stands before the lines after it. -/
theorem test_assemble_loop :
    assemble [.host 1 (.lit 0), .label 2, .host 1 (.add (.var 1) (.lit 1)),
      .goto (.lt (.var 1) (.lit 3)) 2] =
    some { ops := [.host 1 (.lit 0), .host 1 (.add (.var 1) (.lit 1)), .goto (.lt (.var 1) (.lit 3)) 2],
           labels := [(2, [.host 1 (.add (.var 1) (.lit 1)), .goto (.lt (.var 1) (.lit 3)) 2])] } := by
  decide

/-! ## One command each: values of 95_test_vectors.md section 2 -/

theorem test_gcd : field (exec .gcd (latched 12 18 0)) (fun t => (t.res, t.ok)) = some (6, true) := by
  decide
theorem test_gcd_zero : field (exec .gcd (latched 0 5 0)) (fun t => (t.res, t.ok, t.err)) =
    some (0, false, 0) := by decide
theorem test_xgcd : field (exec .xgcd (latched 240 46 0))
    (fun t => (t.res, t.sHi, t.sLo, t.tHi, t.tLo)) =
    some (2, 0xFFFFFFFF#32, 0xFFFFFFF7#32, 0, 0x0000002F#32) := by decide
/-- The worst-case Euclid chain, 45 division steps. -/
theorem test_xgcd_fibonacci : field (exec .xgcd (latched 1836311903 2971215073 0))
    (fun t => (t.res, t.bezoutS, t.bezoutT)) = some (1, 1134903170, -701408733) := by decide
theorem test_modinv : field (exec .modinv (latched 101 0 100000007)) (fun t => (t.res, t.ok)) =
    some (62376242, true) := by decide
theorem test_modinv_none : field (exec .modinv (latched 14 0 35)) (fun t => (t.res, t.ok)) =
    some (0, false) := by decide
theorem test_modpow : field (exec .modpow (latched 101 56970121 100000007)) (fun t => (t.res, t.ok)) =
    some (654321, true) := by decide
theorem test_modpow_shortcut : field (exec .modpow (latched 1 9 1)) (fun t => (t.res, t.ok)) =
    some (1, true) := by decide
theorem test_tclr : field (exec .tclr (small twoSlots 0 0)) (fun t => (t.tcount, t.slot 5)) =
    some (0, Slot.empty) := by decide
/-- Home slot 31 is filled, so the walk wraps to slot 0. -/
theorem test_tins_wraps : field (exec .tins (small twoSlots 63 3))
    (fun t => (t.res, t.tcount, t.slot 0)) = some (0, 3, { exp := 3, res := 63 }) := by decide
theorem test_tins_full : field (exec .tins (small fullTable 33 0)) (fun t => (t.err, t.tab)) =
    some (5, fullTable) := by decide
/-- A hit with exponent 0: OK tells, not RES. -/
theorem test_tlkp_hit_zero : field (exec .tlkp (small twoSlots 5 0)) (fun t => (t.res, t.ok)) =
    some (0, true) := by decide
theorem test_tlkp_full_absent : field (exec .tlkp (small fullTable 96 0)) (fun t => (t.res, t.ok)) =
    some (0, false) := by decide

/-! ## One step each: the window and the turns (95_test_vectors.md 2.7, P5) -/

theorem test_fetch_word_runs : field (step (State.reset.withFetchWord 32 0x11))
    (fun t => (t.err, t.done, t.busy)) = some (3, true, false) := by decide
theorem test_reset_idles : field (step State.reset) id = some State.reset := by decide
theorem test_accept : field (step (hosted [] [.write .w32 0x00 (.lit 1)]
    { State.reset with opa := 12, opb := 18 })) (fun t => (t.busy, t.lcmd, t.la, t.lb)) =
    some (true, 1, 12, 18) := by decide
theorem test_drop : field (step (running 1 [.host] [.write .w32 0x00 (.lit 2)] State.reset))
    (fun t => (t.cmdovr, t.lcmd)) = some (true, 1) := by decide
theorem test_status_write : busRead 0x04 (busWrite 0x04 0xFFFFFFFF#32
    { State.reset with cmdovr := true, ok := true, done := true }) = 0x004#32 := by decide
theorem test_capr : busRead 0x2C State.reset = 0x0002001D#32 := by decide
theorem test_narrow_access : faultOf (step (hosted [] [.read 1 .w16 0x04] State.reset)) =
    some .busError := by decide
theorem test_reset_turn : field (step (running 1 [.reset] [] (latched 1 2 3)))
    (fun t => (t.busy, t.la, t.resets)) = some (false, 0, 1) := by decide

/-! ## Witnesses: the hypotheses of the statements are met -/

/-- A TINS in progress on a table with two slots filled, the engine next. -/
def tinsNow : State := running 0x11#32 [.engine] [] (small twoSlots 37 1)

theorem witness_DecodeEncodeAgree : Instr.xgcd.wellFormed = true := by decide
theorem witness_ByteOrderRoundTrip :
    wordOfBytes [0x78#8, 0x56#8, 0x34#8, 0x12#8] = some 0x12345678#32 := by decide
theorem witness_ResetEventRestoresResetState : (running 1 [.reset] [] State.reset).turn = .reset := by
  decide
theorem witness_StepKeepsInvariant : Invariant tinsNow ∧ ∃ t, step tinsNow = .next t ∧ t.tcount = 3 :=
  ⟨by decide, next_of_field (by decide)⟩
theorem witness_StepRunsLatchedCommand : Instr.tins.wellFormed = true ∧ tinsNow.turn = .engine ∧
    tinsNow.busy = true ∧ decode tinsNow.lcmd = .ok .tins := by decide
theorem witness_EngineIdleWhenNotBusy : (hosted [.engine] [] State.reset).turn = .engine ∧
    (hosted [.engine] [] State.reset).busy = false := by decide
/-- One boundary opcode for each end of each range: 0x00, 0x05, 0x0F, 0x13, 0xFF. -/
theorem witness_IllegalWordsCompleteWithError_opcode :
    [0x00#32, 0x05#32, 0x0F#32, 0x13#32, 0xFF#32].all (fun w =>
      let s := running w [] [] State.reset
      let op := (s.lcmd.extractLsb' 0 8).toNat
      decide (s.turn = .engine) && s.busy &&
        decide (op = 0x00 ∨ (0x05 ≤ op ∧ op ≤ 0x0F) ∨ 0x13 ≤ op)) = true := by decide
theorem witness_IllegalWordsCompleteWithError_reserved :
    [0x101#32, 0x80000012#32].all (fun w =>
      let s := running w [] [] State.reset
      let op := (s.lcmd.extractLsb' 0 8).toNat
      decide (s.turn = .engine) && s.busy && decide (s.lcmd.extractLsb' 8 24 ≠ 0) &&
        decide (op = 0x01 ∨ op = 0x02 ∨ op = 0x03 ∨ op = 0x04 ∨ op = 0x10 ∨ op = 0x11 ∨ op = 0x12)) =
      true := by decide
theorem witness_IllegalWordsCompleteWithError_accept : State.reset.busy = false := rfl

/-- A GCD in progress, two host accesses scheduled before its completion. -/
def gcdLater : State :=
  running 1 [.host, .host] [.read 1 .w32 0x14, .write .w32 0x08 (.lit 99)] (latched 12 18 0)

theorem witness_CommandInProgressEnds : Invariant gcdLater ∧ ProgramAdmitted gcdLater ∧
    gcdLater.busy = true := by decide

/-- The next access is a 16-bit one. -/
def narrowNext : State := hosted [] [.read 1 .w16 0x04] State.reset

theorem witness_OnlyRefusedAccessFaults : Invariant narrowNext ∧ step narrowNext = .fault .busError :=
  ⟨by decide, fault_of_faultOf (by decide)⟩
theorem witness_IdleCommandWriteIsAccepted : (latched 1 2 3).busy = false := rfl
theorem witness_BusyCommandWriteIsDropped : gcdLater.busy = true := rfl
theorem witness_StatusWriteClears : Invariant gcdLater ∧ gcdLater.busy = true := by decide
theorem witness_HostReadHasNoSideEffect : gcdLater.turn = .host ∧
    gcdLater.env.program = .read 1 .w32 0x14 :: [.write .w32 0x08 (.lit 99)] ∧
    admitted .w32 0x14 = true := by decide

/-- The host writes the last word of the window next. -/
def writeNext : State := hosted [] [.write .w32 0x3C (.lit 7)] State.reset

theorem witness_HostWriteTakesEffect : writeNext.turn = .host ∧
    writeNext.env.program = .write .w32 0x3C (.lit 7) :: [] ∧ admitted .w32 0x3C = true := by decide
theorem witness_WaitAndHostStatements_wait :
    ((running 1 [.host] [.wait] State.reset).turn = .host ∧
      (running 1 [.host] [.wait] State.reset).busy = true) ∧
    (hosted [] [.wait] State.reset).turn = .host ∧ (hosted [] [.wait] State.reset).busy = false := by
  decide
/-- A branch back to label 2 while variable 1 is below 3. -/
def branchNow (j : Int) : State :=
  { State.reset with env := { schedule := [], program := [.goto (.lt (.var 1) (.lit 3)) 2],
                              labels := [(2, [.wait])], vars := [(1, j)], trace := [] } }

theorem witness_WaitAndHostStatements_host :
    (hosted [] [.host 1 (.sub (.lit 2) (.lit 3))] State.reset).turn = .host := by decide
theorem witness_WaitAndHostStatements_goto : (branchNow 2).turn = .host ∧
    (branchNow 2).hostCond (.lt (.var 1) (.lit 3)) = true ∧
    (branchNow 3).hostCond (.lt (.var 1) (.lit 3)) = false := by decide
/-- `t[2]` of STATUS, which 95_test_vectors.md P4 tests for a hit and a miss, and a wider field (00_scope.md R8). -/
theorem test_host_bits : hostBits 0x206 2 2 = 1 ∧ hostBits 0x202 2 2 = 0 ∧ hostBits 0x242 9 4 = 0x24 := by
  decide
theorem test_goto_taken : field (step (branchNow 2)) (fun t => t.env.program) = some [.wait] := by decide
theorem witness_RefusedAccessIsBusError : narrowNext.turn = .host ∧
    narrowNext.env.program = .read 1 .w16 0x04 :: [] ∧
    (HostOp.read 1 .w16 0x04).admissible = false ∧
    (HostOp.write .w32 0x40 (.lit 0)).admissible = false ∧
    (HostOp.write .w32 0x02 (.lit 0)).admissible = false := by decide
theorem witness_WindowAddresses : (0x3F : Nat) ≤ 0x3F ∧ windowOffset (windowAddress 0x3F) = some 0x3F := by
  refine ⟨Nat.le_refl _, ?_⟩
  simp [windowOffset, windowAddress, Config.windowBytes]

/-- CMDOVR is 1 and the host clears it. -/
def clearOvr : State :=
  hosted [] [.write .w32 0x04 (.lit 0x100#32)] { State.reset with cmdovr := true }

theorem witness_CmdovrIsSticky : clearOvr.cmdovr = true ∧
    ∃ t, step clearOvr = .next t ∧ t.cmdovr = false := ⟨rfl, next_of_field (by decide)⟩
theorem witness_CmdovrIsSticky_writes : gcdLater.busy = true ∧ clearOvr.busy = false ∧
    (0x100#32).getLsbD 8 = true ∧ (running 1 [.reset] [] State.reset).turn = .reset := by decide
theorem witness_CaprIsConstant : ∃ t, step tinsNow = .next t ∧ t.capr = 32 := next_of_field (by decide)
theorem witness_ResultsStayUntilNextAccept :
    (gcdLater.turn = .host ∧ gcdLater.busy = true ∧ ∃ t, step gcdLater = .next t ∧ t.busy = true) ∧
    (writeNext.turn = .host ∧ ∃ t, step writeNext = .next t ∧ t.busy = false) :=
  ⟨⟨by decide, by decide, next_of_field (by decide)⟩, by decide, next_of_field (by decide)⟩
theorem witness_PseudoInstructionProgramsArePaced :
    [Hasm.tclr, .label 1, .tins (.num 5) (.num 0), .goto .always 1].all (fun h => !h.rawCommand) = true ∧
    (assemble [Hasm.tclr, .label 1, .tins (.num 5) (.num 0), .goto .always 1]).isSome = true ∧
    State.reset.busy = false := by decide

/-- A paced program right before its command write. -/
def pacedNow : State := hosted [] [.write .w32 0x00 (.lit 1), .wait] State.reset

theorem witness_PacedProgramNeverOverruns : PacedHost pacedNow ∧
    pacedNow.cmdovr = false ∧ ∃ t, step pacedNow = .next t ∧ t.busy = true :=
  ⟨by decide, rfl, next_of_field (by decide)⟩
theorem witness_CompletionFrame :
    (∃ t, exec .xgcd (latched 240 46 0) = .next t ∧ t.err = 0) ∧
    (∃ t, exec .tclr tinsNow = .next t ∧ t.err = 0) ∧
    (∃ t, exec .tins (small twoSlots 0 1) = .next t ∧ t.err = 4) :=
  ⟨next_of_field (by decide), next_of_field (by decide), next_of_field (by decide)⟩
theorem witness_UnusedOperandsIgnored : (operandUse .tclr).a = false ∧ (operandUse .modinv).b = false ∧
    (operandUse .gcd).n = false := by decide
theorem witness_GcdZeroOperand : (latched 0 5 0).la = 0 ∧ (latched 5 0 0).lb = 0 := by decide
theorem witness_GcdGreatestCommonDivisor : (latched 0xFFFFFFFF#32 1 0).la ≠ 0 ∧
    (latched 0xFFFFFFFF#32 1 0).lb ≠ 0 := by decide
theorem witness_XgcdZeroOperand : (latched 0 5 0).la = 0 ∧ (latched 5 0 0).lb = 0 := by decide
theorem witness_XgcdBezoutIdentity : (latched 0xFFFFFFFF#32 0xFFFFFFFD#32 0).la ≠ 0 ∧
    (latched 0xFFFFFFFF#32 0xFFFFFFFD#32 0).lb ≠ 0 ∧
    ∃ t, exec .xgcd (latched 0xFFFFFFFF#32 0xFFFFFFFD#32 0) = .next t ∧ t.ok = true :=
  ⟨by decide, by decide, next_of_field (by decide)⟩
theorem witness_XgcdCoefficientRange : (latched 1 0xFFFFFFFF#32 0).la ≠ 0 ∧
    (latched 1 0xFFFFFFFF#32 0).lb ≠ 0 := by decide
theorem witness_XgcdSwapRule : ((latched 3 7 0).la ≠ (latched 3 7 0).lb ∧ (latched 3 7 0).la ≠ 0 ∧
    (latched 3 7 0).lb ≠ 0) ∧ (latched 7 7 0).la = (latched 7 7 0).lb ∧ (latched 7 7 0).la ≠ 0 := by
  decide
theorem witness_EuclidEndsWithin45Steps : (1836311903 : Nat) ≤ 2971215073 ∧ 2971215073 < 2 ^ 32 := by
  decide
/-- Each of the three failures alone, at a boundary of its range. -/
theorem witness_ModinvFailure : (latched 5 0 1).ln.toNat ≤ 1 ∧
    (latched 7 0 7).la.toNat % (latched 7 0 7).ln.toNat = 0 ∧
    Nat.gcd (latched 2 0 4).la.toNat (latched 2 0 4).ln.toNat ≠ 1 := by decide
theorem witness_ModinvIsTheInverse : 2 ≤ (latched 1 0 2).ln.toNat ∧
    (latched 1 0 2).la.toNat % (latched 1 0 2).ln.toNat ≠ 0 ∧
    Nat.gcd (latched 1 0 2).la.toNat (latched 1 0 2).ln.toNat = 1 := by decide
theorem witness_ModpowZeroModulus : (latched 2 0 0).ln = 0 := rfl
theorem witness_ModpowRawOperandShortcut : (latched 0 0 1).ln ≠ 0 ∧ (latched 0 0 1).la = 0 ∧
    (latched 1 9 1).ln ≠ 0 ∧ (latched 1 9 1).la = 1 := by decide
theorem witness_ModpowModulusOne : (latched 2 0 1).ln = 1 ∧ 2 ≤ (latched 2 0 1).la.toNat := by decide
theorem witness_ModpowComputesPower : (latched 2 0xFFFFFFFF#32 0xFFFFFFFB#32).ln ≠ 0 ∧
    2 ≤ (latched 2 0xFFFFFFFF#32 0xFFFFFFFB#32).la.toNat := by decide
theorem witness_ProductsFitIntermediate : (0xFFFFFFFF : Nat) < 2 ^ 32 ∧ 0xFFFFFFFE < 0xFFFFFFFF := by
  decide

/-- A TCLR in progress on a table nothing is known of. -/
def tclrFirst : State := running 0x10#32 [.engine] [] State.reset

theorem witness_TableUninitErrors : (latched 5 0 0).tvalid = false ∧ tclrFirst.tvalid = false ∧
    ∃ t, step tclrFirst = .next t ∧ t.tvalid = true := ⟨rfl, rfl, next_of_field (by decide)⟩
theorem witness_TinsErrorsInOrder : ((small fullTable 0 0).tvalid = true ∧ (small fullTable 0 0).la = 0) ∧
    (small fullTable 33 0).la ≠ 0 ∧ (small fullTable 33 0).tcount = (small fullTable 33 0).capr := by
  decide
theorem witness_TinsStoresAtFirstEmptySlot : Invariant (small twoSlots 63 3) ∧
    (small twoSlots 63 3).tvalid = true ∧ (small twoSlots 63 3).la ≠ 0 ∧
    (small twoSlots 63 3).tcount ≠ (small twoSlots 63 3).capr := by decide
theorem witness_TinsTerminates : Invariant (small twoSlots 63 3) ∧
    (small twoSlots 63 3).tvalid = true ∧ (small twoSlots 63 3).la ≠ 0 ∧
    (small twoSlots 63 3).tcount ≠ (small twoSlots 63 3).capr := by decide
/-- One slot is empty: TCOUNT + 1 is CAP itself. -/
theorem witness_TinsTerminates_last : Invariant (small (fullTable.take 31) 32 0) ∧
    (small (fullTable.take 31) 32 0).tcount ≠ (small (fullTable.take 31) 32 0).capr ∧
    (small (fullTable.take 31) 32 0).tcount.toNat + 1 = (small (fullTable.take 31) 32 0).cap := by decide
theorem witness_TinsTerminates_full : (small fullTable 33 0).tvalid = true ∧
    (small fullTable 33 0).la ≠ 0 ∧ (small fullTable 33 0).tcount = (small fullTable 33 0).capr := by
  decide
/-- The model's own stop (assumption log entry 5), in a state that does not meet the invariant: every slot is
filled and TCOUNT is wrong. -/
theorem test_tins_endless_stops :
    faultOf (exec .tins { small fullTable 96 0 with tcount := 0 }) = some .probeEndless := by decide

/-- The four clauses: residue 0; a hit at position 0; an empty slot at position 2 after the wrap; absent from
a full table. -/
theorem witness_TlkpOutcome_zero : (small twoSlots 0 0).tvalid = true ∧ 0 < (small twoSlots 0 0).cap ∧
    (small twoSlots 0 0).la = 0 := by decide
theorem witness_TlkpOutcome_hit : (small twoSlots 31 0).la ≠ 0 ∧
    ((small twoSlots 31 0).slot ((small twoSlots 31 0).probe 31 0)).res = (small twoSlots 31 0).la := by
  decide
theorem witness_TlkpOutcome_empty : (small twoSlots 63 0).la ≠ 0 ∧
    ((small twoSlots 63 0).slot ((small twoSlots 63 0).probe 63 1)).res = 0 ∧
    ∀ j < 1, ((small twoSlots 63 0).slot ((small twoSlots 63 0).probe 63 j)).res ≠
      (small twoSlots 63 0).la := by decide
theorem witness_TlkpOutcome_full : (small fullTable 96 0).la ≠ 0 ∧
    ∀ i < (small fullTable 96 0).cap,
      ((small fullTable 96 0).slot ((small fullTable 96 0).probe 96 i)).res ≠
        (small fullTable 96 0).la := by decide
theorem witness_ProbeSequenceVisitsEverySlotOnce : 31 < (small [] 0 0).cap := by decide
theorem witness_EmptySlotWithinTcountPlusOneProbes : Invariant (small twoSlots 0 0) ∧
    (small twoSlots 0 0).tvalid = true ∧ (small twoSlots 0 0).tcount.toNat < (small twoSlots 0 0).cap := by
  decide
theorem witness_TcountCountsFilledSlots :
    (Invariant (small twoSlots 63 3) ∧ (small twoSlots 63 3).tvalid = true) ∧
    (∃ t, exec .tclr tinsNow = .next t ∧ t.ok = true) ∧
    (∃ t, exec .tins (small twoSlots 63 3) = .next t ∧ t.ok = true) ∧
    (∃ t, exec .tlkp (small twoSlots 5 3) = .next t ∧ t.ok = true) :=
  ⟨by decide, next_of_field (by decide), next_of_field (by decide), next_of_field (by decide)⟩
theorem witness_FilledSlotKeptUntilClearOrReset : Invariant tinsNow ∧ tinsNow.tvalid = true ∧
    (tinsNow.slot 5).res ≠ 0 ∧ tinsNow.turn ≠ .reset ∧ ¬ CompletesTclr tinsNow ∧
    ∃ t, step tinsNow = .next t ∧ t.tcount = 3 :=
  ⟨by decide, by decide, by decide, by decide, by decide, next_of_field (by decide)⟩
theorem witness_FirstWriterWins_absent : Invariant (small twoSlots 37 1) ∧
    (small twoSlots 37 1).lookup (small twoSlots 37 1).la = none ∧
    ∃ t, exec .tins (small twoSlots 37 1) = .next t ∧ t.ok = true :=
  ⟨by decide, by decide, next_of_field (by decide)⟩
/-- A second TINS of residue 5, which is present with exponent 0. -/
theorem witness_FirstWriterWins_present :
    let s := running 0x11#32 [.engine] [] (small twoSlots 5 9)
    Invariant s ∧ s.tvalid = true ∧ s.lookup 5 = some 0 ∧ s.turn ≠ .reset ∧ ¬ CompletesTclr s ∧
      ∃ t, step s = .next t ∧ t.tcount = 3 :=
  ⟨by decide, by decide, by decide, by decide, by decide, next_of_field (by decide)⟩
/-- The same TINS, whose residue stands first at position 0. -/
theorem witness_FirstWriterWins_later : Invariant (small twoSlots 5 9) ∧ 0 < (small twoSlots 5 9).cap ∧
    ((small twoSlots 5 9).slot ((small twoSlots 5 9).probe 5 0)).res = (small twoSlots 5 9).la ∧
    ∃ t, exec .tins (small twoSlots 5 9) = .next t ∧ t.ok = true :=
  ⟨by decide, by decide, by decide, next_of_field (by decide)⟩
theorem witness_FirstWriterWins_hit : (small twoSlots 31 0).tvalid = true ∧
    (small twoSlots 31 0).lookup (small twoSlots 31 0).la = some 2 := by decide

end Sys2Proof.Tests
end

section
/-! PROOFS. The scope statements: no step of a legal state refuses, and only a refused host access faults
(00_scope.md R15, 30_encoding.md R85, 60_exceptions.md R146); and no command's effect depends on the
unspecified contents of the table (00_scope.md R16, 42_mitm_table.md R122). -/

namespace Sys2Proof.Machine

/-! ## The slots the table lists -/

/-- The keys of a sorted map are distinct. -/
theorem Assoc.nodup_keys {β : Type} {b : Option Nat} {m : List (Nat × β)}
    (h : Assoc.sortedFrom b m = true) : (m.map Prod.fst).Nodup := by
  induction m generalizing b with
  | nil => exact List.nodup_nil
  | cons p m ih =>
    obtain ⟨k, e⟩ := p
    have htail := Assoc.sortedFrom_tail h
    refine List.nodup_cons.2 ⟨fun hk => ?_, ih htail⟩
    obtain ⟨q, hq, hqk⟩ := List.mem_map.1 hk
    exact absurd (Assoc.lt_of_mem htail hq) (by omega)

/-- While TVALID = 1 a slot that reads as filled is listed. -/
theorem State.mem_keys_of_filled {s : State} (hv : s.tvalid = true) {k : Nat}
    (hk : (s.slot k).res ≠ 0) : k ∈ s.tab.map Prod.fst := by
  cases hf : Assoc.find s.tab k with
  | none => exact absurd (by simp [State.slot, hf, State.unlistedSlot, hv, Slot.empty]) hk
  | some e => exact List.mem_map.2 ⟨(k, e), Assoc.find_some_mem hf, rfl⟩

/-- No more slots are counted than the table has (10_state.md R35). -/
theorem TableInv.tcount_le_cap {s : State} (h : TableInv s) (hv : s.tvalid = true) :
    s.tcount.toNat ≤ s.cap := by
  obtain ⟨-, hwf, hin, hcount, -⟩ := h
  have hnodup := Assoc.nodup_keys ((Memory.wf_iff _).1 hwf).1
  have hsub : s.tab.map Prod.fst ⊆ List.range s.cap := by
    intro k hk
    obtain ⟨p, hp, rfl⟩ := List.mem_map.1 hk
    exact List.mem_range.2 (hin p hp).1
  have hle := (hnodup.subperm hsub).length_le
  rw [List.length_map, List.length_range] at hle
  exact (hcount hv).trans_le hle

/-- A table that does not count CAP slots has an empty one (42_mitm_table.md R124). -/
theorem TableInv.exists_empty_slot {s : State} (h : TableInv s) (hv : s.tvalid = true)
    (hlt : s.tcount.toNat < s.cap) : ∃ k < s.cap, (s.slot k).res = 0 := by
  obtain ⟨-, -, -, hcount, -⟩ := h
  by_contra hfull
  push Not at hfull
  have hsub : List.range s.cap ⊆ s.tab.map Prod.fst := fun k hk =>
    State.mem_keys_of_filled hv (hfull k (List.mem_range.1 hk))
  have hle := (List.nodup_range.subperm hsub).length_le
  rw [List.length_map, List.length_range, ← hcount hv] at hle
  omega

/-! ## TINS finds an empty slot -/

/-- A walk of `cap` positions from any start comes to every slot (20_memory.md R59). -/
theorem exists_walk_eq {start k cap : Nat} (hs : start < cap) (hk : k < cap) :
    ∃ i < cap, (start + i) % cap = k := by
  rcases Nat.lt_or_ge k start with hlt | hge
  · refine ⟨k + cap - start, by omega, ?_⟩
    rw [show start + (k + cap - start) = k + cap by omega, Nat.add_mod_right, Nat.mod_eq_of_lt hk]
  · refine ⟨k - start, by omega, ?_⟩
    rw [show start + (k - start) = k by omega, Nat.mod_eq_of_lt hk]

/-- TINS's walk ends at a slot wherever the table is legal and not full (42_mitm_table.md R128). -/
theorem TableInv.exists_findEmpty {s : State} (h : TableInv s) (hv : s.tvalid = true)
    (hnotfull : s.tcount ≠ s.capr) (r : Nat) : ∃ k, s.findEmpty s.cap (s.homeSlot r) = some k := by
  have hne : s.tcount.toNat ≠ s.cap := fun heq => hnotfull (BitVec.eq_of_toNat_eq heq)
  obtain ⟨k, hk, hempty⟩ := h.exists_empty_slot hv (lt_of_le_of_ne (h.tcount_le_cap hv) hne)
  have hhome := State.homeSlot_lt (Nat.zero_lt_of_lt hk) r
  obtain ⟨i, hi, rfl⟩ := exists_walk_eq hhome hk
  cases hwalk : s.findEmpty s.cap (s.homeSlot r) with
  | none => exact absurd hempty ((State.findEmpty_eq_none hhome).1 hwalk i hi)
  | some j => exact ⟨j, rfl⟩

/-! ## What a step of a legal state answers -/

/-- From a legal table TINS has a next state: its loop ends (42_mitm_table.md R128). -/
theorem TableInv.execTins_next {s : State} (h : TableInv s) : ∃ t, execTins s = .next t := by
  unfold execTins
  split
  · exact ⟨_, rfl⟩
  next hv =>
    split
    · exact ⟨_, rfl⟩
    · split
      · exact ⟨_, rfl⟩
      next hnotfull =>
        obtain ⟨k, hk⟩ := h.exists_findEmpty (by simpa using hv) hnotfull s.opndA
        exact ⟨_, by rw [hk]⟩

/-- From a legal table every command has a next state: none refuses and none faults. -/
theorem TableInv.exec_next {s : State} (h : TableInv s) (i : Instr) : ∃ t, exec i s = .next t := by
  cases i with
  | gcd =>
    show ∃ t, execGcd s = .next t
    unfold execGcd
    split <;> exact ⟨_, rfl⟩
  | xgcd =>
    show ∃ t, execXgcd s = .next t
    unfold execXgcd
    split <;> exact ⟨_, rfl⟩
  | modinv =>
    show ∃ t, execModinv s = .next t
    unfold execModinv
    split <;> exact ⟨_, rfl⟩
  | modpow =>
    show ∃ t, execModpow s = .next t
    unfold execModpow
    split
    · exact ⟨_, rfl⟩
    · split <;> exact ⟨_, rfl⟩
  | tclr => exact ⟨_, rfl⟩
  | tins => exact h.execTins_next
  | tlkp =>
    show ∃ t, execTlkp s = .next t
    unfold execTlkp
    split
    · exact ⟨_, rfl⟩
    · split <;> exact ⟨_, rfl⟩

/-- From a legal table the engine's turn has a next state, whatever word is latched
(30_encoding.md R85). -/
theorem TableInv.engineTurn_next {s : State} (h : TableInv s) : ∃ t, engineTurn s = .next t := by
  unfold engineTurn
  split
  · unfold completion
    split
    · exact h.exec_next _
    · exact ⟨_, rfl⟩
  · exact ⟨_, rfl⟩

/-- A host operation has a next state, or it is a bus error of an access that the window refuses
(60_exceptions.md R146). -/
theorem runHostOp_next_or_busError (op : HostOp) (rest : List HostOp) (s : State) :
    (∃ t, runHostOp op rest s = .next t) ∨
    (runHostOp op rest s = .fault .busError ∧ op.admissible = false) := by
  cases op with
  | read x width off =>
    cases ha : admitted width off with
    | true => exact .inl ⟨_, if_pos ha⟩
    | false => exact .inr ⟨if_neg (by simp [ha]), ha⟩
  | write width off v =>
    cases ha : admitted width off with
    | true => exact .inl ⟨_, if_pos ha⟩
    | false => exact .inr ⟨if_neg (by simp [ha]), ha⟩
  | wait => exact .inl ⟨_, rfl⟩
  | host x e => exact .inl ⟨_, rfl⟩
  | goto c l => exact .inl ⟨_, rfl⟩

/-- The next access of the host is one the window refuses. -/
def State.NextAccessRefused (s : State) : Prop :=
  ∃ op rest, s.env.program = op :: rest ∧ op.admissible = false

/-- The host's turn has a next state, or it is a bus error of a refused access. -/
theorem hostTurn_next_or_busError (s : State) :
    (∃ t, hostTurn s = .next t) ∨ (hostTurn s = .fault .busError ∧ s.NextAccessRefused) := by
  unfold hostTurn
  split
  · exact .inl ⟨_, rfl⟩
  next op rest hprog =>
    rcases runHostOp_next_or_busError op rest s with hnext | ⟨hfault, hadm⟩
    · exact .inl hnext
    · exact .inr ⟨hfault, op, rest, hprog, hadm⟩

/-- A step of a legal state has a next state, or it is a bus error of the host's refused access. -/
theorem step_next_or_busError {s : State} (h : Invariant s) :
    (∃ t, step s = .next t) ∨
    (step s = .fault .busError ∧ s.turn = .host ∧ s.NextAccessRefused) := by
  unfold step
  cases s.turn with
  | host =>
    rcases hostTurn_next_or_busError s.popTurn with hnext | ⟨hfault, hrefused⟩
    · exact .inl hnext
    · exact .inr ⟨hfault, rfl, hrefused⟩
  | engine => exact .inl (TableInv.engineTurn_next ((invariant_popTurn s).2 h).2)
  | reset => exact .inl ⟨_, rfl⟩

/-- Settles O13: a legal state's step answers a next state, or a bus error of the host's refused
access. -/
theorem onlyRefusedAccessFaults : Obligations.OnlyRefusedAccessFaults := by
  intro s h
  rcases step_next_or_busError h with ⟨t, ht⟩ | ⟨hfault, hturn, hrefused⟩
  · simp [ht]
  · refine ⟨by simp [hfault], fun r hr => ?_⟩
    rw [hfault] at hr
    cases hr
    exact ⟨rfl, hturn, hrefused⟩

/-! ## What the table's walks depend on -/

/-- The walk to an empty slot depends on the capacity and what the slots read as, and on nothing else. -/
theorem State.findEmpty_congr {s t : State} (hcap : t.cap = s.cap) (hslot : ∀ k, t.slot k = s.slot k)
    (fuel k : Nat) : t.findEmpty fuel k = s.findEmpty fuel k := by
  induction fuel generalizing k with
  | zero => rfl
  | succ fuel ih => simp only [State.findEmpty, hslot, hcap, ih]

/-- The walk to a residue depends on the capacity and what the slots read as, and on nothing else. -/
theorem State.findResidue_congr {s t : State} (hcap : t.cap = s.cap)
    (hslot : ∀ k, t.slot k = s.slot k) (r : Word) (fuel k : Nat) :
    t.findResidue r fuel k = s.findResidue r fuel k := by
  induction fuel generalizing k with
  | zero => rfl
  | succ fuel ih => simp only [State.findResidue, hslot, hcap, ih]

/-- A lookup depends on what its walk depends on. -/
theorem State.lookup_congr {s t : State} (hcap : t.cap = s.cap) (hslot : ∀ k, t.slot k = s.slot k)
    (r : Word) : t.lookup r = s.lookup r := by
  simp only [State.lookup, State.homeSlot, hcap, State.findResidue_congr hcap hslot]

/-! ## The reset count, which selects the unspecified contents -/

/-- Another reset count, hence other unspecified contents of the table. -/
def State.setResets (era : Nat) (s : State) : State := { s with resets := era }

section
variable (s : State) (era : Nat)

@[simp] theorem State.setResets_tvalid : (s.setResets era).tvalid = s.tvalid := by rfl
@[simp] theorem State.setResets_la : (s.setResets era).la = s.la := by rfl
@[simp] theorem State.setResets_opndA : (s.setResets era).opndA = s.opndA := by rfl
@[simp] theorem State.setResets_opndB : (s.setResets era).opndB = s.opndB := by rfl
@[simp] theorem State.setResets_opndN : (s.setResets era).opndN = s.opndN := by rfl
@[simp] theorem State.setResets_tcount : (s.setResets era).tcount = s.tcount := by rfl
@[simp] theorem State.setResets_capr : (s.setResets era).capr = s.capr := by rfl
@[simp] theorem State.setResets_cap : (s.setResets era).cap = s.cap := by rfl

end

/-- While TVALID = 1 no slot reads as an unspecified value (42_mitm_table.md R121). -/
theorem State.slot_setResets {s : State} (hv : s.tvalid = true) (era k : Nat) :
    (s.setResets era).slot k = s.slot k := by
  simp [State.slot, State.unlistedSlot, State.setResets, hv]

/-- TINS asks TVALID before it walks, so it meets no unspecified slot (42_mitm_table.md R122). -/
theorem execTins_setResets (s : State) (era : Nat) :
    execTins (s.setResets era) = mapNext (State.setResets era) (execTins s) := by
  have hwalk (hv : s.tvalid = true) :
      (s.setResets era).findEmpty s.cap ((s.setResets era).homeSlot s.opndA) =
        s.findEmpty s.cap (s.homeSlot s.opndA) :=
    State.findEmpty_congr (State.setResets_cap s era) (State.slot_setResets hv era) _ _
  simp only [execTins, State.setResets_tvalid, State.setResets_la, State.setResets_tcount,
    State.setResets_capr, State.setResets_cap, State.setResets_opndA]
  split
  · rfl
  next hv =>
    rw [hwalk (by simpa using hv)]
    split
    · rfl
    · split
      · rfl
      · split <;> rfl

/-- TLKP asks TVALID before it walks, so it meets no unspecified slot (42_mitm_table.md R122). -/
theorem execTlkp_setResets (s : State) (era : Nat) :
    execTlkp (s.setResets era) = mapNext (State.setResets era) (execTlkp s) := by
  simp only [execTlkp, State.setResets_tvalid, State.setResets_la]
  split
  · rfl
  next hv =>
    rw [State.lookup_congr (State.setResets_cap s era)
      (State.slot_setResets (by simpa using hv) era)]
    split <;> rfl

/-- Settles O35: the commands that walk the table ask TVALID first, and the others do not read it. -/
theorem unspecifiedTableUnobservable : Obligations.UnspecifiedTableUnobservable := by
  intro i s era
  show exec i (s.setResets era) = mapNext (State.setResets era) (exec i s)
  cases i with
  | gcd =>
    simp only [exec, execGcd, State.setResets_opndA, State.setResets_opndB]
    split <;> rfl
  | xgcd =>
    simp only [exec, execXgcd, State.setResets_opndA, State.setResets_opndB]
    split <;> rfl
  | modinv =>
    simp only [exec, execModinv, State.setResets_opndA, State.setResets_opndN]
    split <;> rfl
  | modpow =>
    simp only [exec, execModpow, State.setResets_opndA, State.setResets_opndB,
      State.setResets_opndN]
    split
    · rfl
    · split <;> rfl
  | tclr => rfl
  | tins => exact execTins_setResets s era
  | tlkp => exact execTlkp_setResets s era

end Sys2Proof.Machine
end

section
/-! PROOFS. The statements of the state and the command life cycle (10_state.md): the value after reset, the
window's registers and STATUS, accept and drop, what a completion changes and leaves alone, the
invariant over every step, and the end of a command in progress. -/

namespace Sys2Proof.Machine

/-! ## The registers of the window (10_state.md R22, R23, R32) -/

/-- A read at a register's offset is the register's read. -/
theorem busRead_offset (r : BusReg) (s : State) : busRead r.offset s = s.readReg r := by
  cases r <;> rfl

/-- A write at a register's offset is the register's write effect. -/
theorem busWrite_offset (r : BusReg) (v : Word) (s : State) :
    busWrite r.offset v s = s.writeReg r v := by
  cases r <;> rfl

/-- Settles O20: each offset reads its own register. -/
theorem registerMapReads : Obligations.RegisterMapReads := fun s =>
  ⟨busRead_offset .cmd s, busRead_offset .opa s, busRead_offset .opb s, busRead_offset .opn s,
    busRead_offset .res s, busRead_offset .sLo s, busRead_offset .sHi s, busRead_offset .tLo s,
    busRead_offset .tHi s, busRead_offset .tcount s, busRead_offset .capr s⟩

/-- Settles O18: a write to an operand register stores the word, and the read after it returns it. -/
theorem operandRegistersReadBack : Obligations.OperandRegistersReadBack := fun s v =>
  ⟨busWrite_offset .opa v s, busRead_offset .opa _, busWrite_offset .opb v s,
    busRead_offset .opb _, busWrite_offset .opn v s, busRead_offset .opn _⟩

/-- A CMD write to the idle engine is the accept step (10_state.md R38). -/
theorem busWrite_cmd_idle {s : State} (h : s.busy = false) (v : Word) :
    busWrite 0x00 v s = s.accept v := by
  rw [show busWrite 0x00 v s = s.writeReg .cmd v from busWrite_offset .cmd v s]
  simp [State.writeReg, h]

/-- A CMD write to the busy engine is dropped (10_state.md R39). -/
theorem busWrite_cmd_busy {s : State} (h : s.busy = true) (v : Word) :
    busWrite 0x00 v s = s.dropCmd := by
  rw [show busWrite 0x00 v s = s.writeReg .cmd v from busWrite_offset .cmd v s]
  simp [State.writeReg, h]

/-- Settles O14: the accept step is the record update of R38. -/
theorem idleCommandWriteIsAccepted : Obligations.IdleCommandWriteIsAccepted :=
  fun _ v h => busWrite_cmd_idle h v

/-- Settles O15: the drop is the record update of R39. -/
theorem busyCommandWriteIsDropped : Obligations.BusyCommandWriteIsDropped :=
  fun _ v h => busWrite_cmd_busy h v

/-! ## STATUS (10_state.md R24 to R26) -/

/-- The bits of a STATUS read, by position (10_state.md R24). -/
theorem State.statusWord_getLsbD (s : State) (i : Nat) :
    s.statusWord.getLsbD i =
      if i = 0 then s.busy else if i = 1 then s.done else if i = 2 then s.ok
      else if i = 3 then false else if i < 8 then s.err.getLsbD (i - 4)
      else if i = 8 then s.cmdovr else if i = 9 then s.tvalid else false := by
  rw [State.statusWord, BitVec.getLsbD_setWidth]
  rcases Nat.lt_or_ge i 10 with hi | hi
  · simp only [BitVec.getLsbD_append]
    interval_cases i <;> simp
  · rw [BitVec.getLsbD_of_ge _ _ hi]
    grind

/-- Settles O17: each field stands at its bits, and the bits above TVALID are 0. -/
theorem statusReadLayout : Obligations.StatusReadLayout := by
  intro s
  rw [show busRead 0x04 s = s.statusWord from busRead_offset .status s]
  refine ⟨s.statusWord_getLsbD 0, s.statusWord_getLsbD 1, s.statusWord_getLsbD 2,
    s.statusWord_getLsbD 3, ?err, s.statusWord_getLsbD 8, s.statusWord_getLsbD 9, ?reserved⟩
  case err =>
    apply BitVec.eq_of_getLsbD_eq
    intro i hi
    rw [BitVec.getLsbD_extractLsb', State.statusWord_getLsbD]
    grind
  case reserved =>
    apply BitVec.eq_of_getLsbD_eq
    intro i hi
    rw [BitVec.getLsbD_extractLsb', State.statusWord_getLsbD]
    grind

/-- The bits a STATUS write can clear: DONE and CMDOVR (10_state.md R25). -/
theorem statusClearMask_getLsbD {i : Nat} (hi : i < 32) :
    (0x00000102#32).getLsbD i = decide (i = 1 ∨ i = 8) := by
  interval_cases i <;> rfl

/-- A STATUS write clears in the word the ones it writes to DONE and CMDOVR (10_state.md R25). -/
theorem State.statusWord_writeStatus (v : Word) (s : State) :
    (s.writeStatus v).statusWord = s.statusWord &&& ~~~(v &&& 0x00000102#32) := by
  apply BitVec.eq_of_getLsbD_eq
  intro i hi
  simp only [BitVec.getLsbD_and, BitVec.getLsbD_not, hi, statusClearMask_getLsbD hi]
  rw [State.statusWord_getLsbD, State.statusWord_getLsbD]
  by_cases hdone : i = 1
  · subst hdone
    cases hv : v.getLsbD 1 <;> simp [-BitVec.getLsbD_eq_getElem, State.writeStatus, hv]
  by_cases hovr : i = 8
  · subst hovr
    cases hv : v.getLsbD 8 <;> simp [-BitVec.getLsbD_eq_getElem, State.writeStatus, hv]
  · simp [hdone, hovr, State.writeStatus]

/-- While DONE is 0, writing 1 to it alone changes nothing. -/
theorem State.writeStatus_done_of_clear {s : State} (h : s.done = false) :
    s.writeStatus 0x00000002#32 = s := by
  calc s.writeStatus 0x00000002#32 = { s with done := false } := rfl
    _ = s := by rw [← h]

/-- Settles O16: the write's effect on the word STATUS reads as; and BUSY = 1 has DONE = 0. -/
theorem statusWriteClears : Obligations.StatusWriteClears := by
  refine ⟨fun s v => ⟨?_, _, _, busWrite_offset .status v s⟩, fun s hinv hb => ?_⟩
  · calc busRead 0x04 (busWrite 0x04 v s) = (s.writeStatus v).statusWord := rfl
      _ = s.statusWord &&& ~~~(v &&& 0x00000102#32) := State.statusWord_writeStatus v s
  · obtain ⟨⟨hbusy, -⟩, -⟩ := hinv
    exact State.writeStatus_done_of_clear (hbusy hb).1

/-! ## Reset (10_state.md R44) -/

/-- Settles O5: every value is the reset state's own field. -/
theorem resetStateValues : Obligations.ResetStateValues :=
  ⟨by decide, rfl, rfl, rfl, rfl, rfl, rfl, rfl, rfl, rfl, rfl, rfl, rfl, rfl, rfl, rfl, rfl,
    fun _ => rfl⟩

/-! ## The engine's turn (10_state.md R27, R40) -/

theorem step_of_engine_turn {s : State} (h : s.turn = .engine) : step s = engineTurn s.popTurn := by
  simp [step, takeTurn, h]

theorem engineTurn_of_idle {s : State} (h : s.busy = false) : engineTurn s = .next s := by
  simp [engineTurn, h]

/-- The busy engine runs the command that LCMD decodes to (10_state.md R40). -/
theorem engineTurn_of_decode {s : State} {i : Instr} (hb : s.busy = true)
    (hd : decode s.lcmd = .ok i) : engineTurn s = exec i s := by
  simp [engineTurn, completion, hb, hd]

/-- Settles O10: the engine's only step is enabled at BUSY = 1. -/
theorem engineIdleWhenNotBusy : Obligations.EngineIdleWhenNotBusy := by
  intro s hturn hb
  rw [step_of_engine_turn hturn, engineTurn_of_idle (s := s.popTurn) hb]

/-- The decoder reads back every command the encoder writes (30_encoding.md R79). -/
theorem decode_encode (i : Instr) : decode (encode i) = .ok i := by
  have hstmt : Laws.DecodeEncode.Statement i := by
    cases i with
    | gcd => exact Laws.DecodeEncode.gcd
    | xgcd => exact Laws.DecodeEncode.xgcd
    | modinv => exact Laws.DecodeEncode.modinv
    | modpow => exact Laws.DecodeEncode.modpow
    | tclr => exact Laws.DecodeEncode.tclr
    | tins => exact Laws.DecodeEncode.tins
    | tlkp => exact Laws.DecodeEncode.tlkp
  exact (hstmt (by cases i <;> rfl)).1

/-- A table row of 32 bits is the word itself (30_encoding.md R80). -/
theorem tableWord_toNat (w : Word) : tableWord 32 w.toNat = w := by
  rw [tableWord, Nat.mod_eq_of_lt w.isLt, BitVec.ofNat_toNat, BitVec.setWidth_eq]

/-- Taking the engine's turn off an issued word leaves the accepted word. -/
theorem State.popTurn_issue (v : Word) (s : State) : (s.issue v).popTurn = s.accept v := rfl

/-- Settles O9: an engine's turn is the latched command's meaning. -/
theorem stepRunsLatchedCommand : Obligations.StepRunsLatchedCommand := by
  refine ⟨fun s i _ hturn hb hd => ?_, fun s i => ?_⟩
  · exact (step_of_engine_turn hturn).trans (engineTurn_of_decode (s := s.popTurn) hb hd)
  · rw [State.withFetchWord, tableWord_toNat, step_of_engine_turn rfl, State.popTurn_issue]
    exact engineTurn_of_decode (State.accept_busy s _) (decode_encode i)

/-! ## What a command's completion does (10_state.md R36, R40, 60_exceptions.md R142) -/

/-- The ways a command completes: with a result in RES alone, with XGCD's pair as well, with the table
cleared, with an entry in the table's first empty slot, or in an error. -/
inductive Completion (s : State) : Instr → State → Prop
  | result {i : Instr} (hi : i = .gcd ∨ i = .modinv ∨ i = .modpow ∨ i = .tlkp) (v : Nat)
      (okv : Bool) : Completion s i ((s.setRes v).finish okv)
  | bezout (v : Nat) (S T : Int) (okv : Bool) :
      Completion s .xgcd (((s.setRes v).setBezout S T).finish okv)
  | cleared : Completion s .tclr (s.clearTable.finish true)
  | inserted {k : Nat} (hvalid : s.tvalid = true) (hresidue : s.la ≠ 0)
      (hroom : s.tcount ≠ s.capr) (hwalk : s.findEmpty s.cap (s.homeSlot s.opndA) = some k) :
      Completion s .tins
        ((((s.setSlot k { exp := s.lb, res := s.la }).countInsert).setRes k).finish true)
  | error {i : Instr} (hi : i = .tins ∨ i = .tlkp) (c : ErrCode) : Completion s i (s.raiseErr c)

theorem execTins_completion {s t : State} (h : execTins s = .next t) : Completion s .tins t := by
  unfold execTins at h
  split at h
  · cases h
    exact .error (.inl rfl) _
  next hvalid =>
    split at h
    · cases h
      exact .error (.inl rfl) _
    next hresidue =>
      split at h
      · cases h
        exact .error (.inl rfl) _
      next hroom =>
        split at h
        · cases h
        next k hwalk =>
          cases h
          exact .inserted (by simpa using hvalid) hresidue hroom hwalk

theorem execTlkp_completion {s t : State} (h : execTlkp s = .next t) : Completion s .tlkp t := by
  unfold execTlkp at h
  split at h
  · cases h
    exact .error (.inr rfl) _
  · split at h <;> cases h <;> exact .result (by simp) _ _

/-- Every command completes in one of the ways of `Completion`. -/
theorem exec_completion {i : Instr} {s t : State} (h : exec i s = .next t) : Completion s i t := by
  cases i with
  | gcd =>
    simp only [exec, execGcd] at h
    split at h <;> cases h <;> exact .result (by simp) _ _
  | xgcd =>
    simp only [exec, execXgcd] at h
    split at h <;> cases h <;> exact .bezout _ _ _ _
  | modinv =>
    simp only [exec, execModinv] at h
    split at h <;> cases h <;> exact .result (by simp) _ _
  | modpow =>
    simp only [exec, execModpow] at h
    split at h
    · cases h
      exact .result (by simp) _ _
    · split at h <;> cases h <;> exact .result (by simp) _ _
  | tclr =>
    cases h
    exact .cleared
  | tins => exact execTins_completion h
  | tlkp => exact execTlkp_completion h

theorem Completion.capr {i : Instr} {s t : State} (h : Completion s i t) : t.capr = s.capr := by
  cases h <;> rfl

theorem Completion.cmdovr {i : Instr} {s t : State} (h : Completion s i t) :
    t.cmdovr = s.cmdovr := by
  cases h <;> rfl

theorem Completion.busy {i : Instr} {s t : State} (h : Completion s i t) : t.busy = false := by
  cases h <;> rfl

/-- Settles O32: each way of completing writes only its own fields. -/
theorem completionFrame : Obligations.CompletionFrame := by
  intro i s t h
  cases exec_completion h with
  | result hi v okv => rcases hi with rfl | rfl | rfl | rfl <;> simp
  | bezout v S T okv => simp
  | cleared => simp
  | inserted hvalid hresidue hroom hwalk => simp
  | error hi c =>
    exact ⟨by simp, by simp, by simp, by simp, by simp, by simp, fun _ => ⟨hi, rfl⟩⟩

/-! ## The operand registers after the accept (10_state.md R32, R37) -/

/-- Other values in OPA, OPB and OPN. -/
def State.setOperands (a b n : Word) (s : State) : State := { s with opa := a, opb := b, opn := n }

section
variable (s : State) (a b n : Word)

@[simp] theorem State.setOperands_tvalid : (s.setOperands a b n).tvalid = s.tvalid := by rfl
@[simp] theorem State.setOperands_la : (s.setOperands a b n).la = s.la := by rfl
@[simp] theorem State.setOperands_opndA : (s.setOperands a b n).opndA = s.opndA := by rfl
@[simp] theorem State.setOperands_opndB : (s.setOperands a b n).opndB = s.opndB := by rfl
@[simp] theorem State.setOperands_opndN : (s.setOperands a b n).opndN = s.opndN := by rfl
@[simp] theorem State.setOperands_tcount : (s.setOperands a b n).tcount = s.tcount := by rfl
@[simp] theorem State.setOperands_capr : (s.setOperands a b n).capr = s.capr := by rfl
@[simp] theorem State.setOperands_cap : (s.setOperands a b n).cap = s.cap := by rfl
@[simp] theorem State.setOperands_homeSlot (r : Nat) :
    (s.setOperands a b n).homeSlot r = s.homeSlot r := by rfl
@[simp] theorem State.setOperands_slot (k : Nat) :
    (s.setOperands a b n).slot k = s.slot k := by rfl

@[simp] theorem State.findEmpty_setOperands (fuel k : Nat) :
    (s.setOperands a b n).findEmpty fuel k = s.findEmpty fuel k :=
  State.findEmpty_congr (s.setOperands_cap a b n) (s.setOperands_slot a b n) fuel k

@[simp] theorem State.lookup_setOperands (r : Word) :
    (s.setOperands a b n).lookup r = s.lookup r :=
  State.lookup_congr (s.setOperands_cap a b n) (s.setOperands_slot a b n) r

end

/-- A completion works on the latches and the table, so the operand registers pass through it. -/
theorem exec_setOperands (i : Instr) (s : State) (a b n : Word) :
    exec i (s.setOperands a b n) = mapNext (State.setOperands a b n) (exec i s) := by
  cases i with
  | gcd =>
    simp only [exec, execGcd, State.setOperands_opndA, State.setOperands_opndB]
    split <;> rfl
  | xgcd =>
    simp only [exec, execXgcd, State.setOperands_opndA, State.setOperands_opndB]
    split <;> rfl
  | modinv =>
    simp only [exec, execModinv, State.setOperands_opndA, State.setOperands_opndN]
    split <;> rfl
  | modpow =>
    simp only [exec, execModpow, State.setOperands_opndA, State.setOperands_opndB,
      State.setOperands_opndN]
    split
    · rfl
    · split <;> rfl
  | tclr => rfl
  | tins =>
    simp only [exec, execTins, State.setOperands_tvalid, State.setOperands_la,
      State.setOperands_opndA, State.setOperands_tcount, State.setOperands_capr,
      State.setOperands_cap, State.setOperands_homeSlot, State.findEmpty_setOperands]
    split
    · rfl
    · split
      · rfl
      · split
        · rfl
        · split <;> rfl
  | tlkp =>
    simp only [exec, execTlkp, State.setOperands_tvalid, State.setOperands_la,
      State.lookup_setOperands]
    split
    · rfl
    · split <;> rfl

/-- Settles O33: the operand registers pass through every completion. -/
theorem operandWritesCommuteWithCompletion : Obligations.OperandWritesCommuteWithCompletion :=
  exec_setOperands

/-! ## What a turn of the host does to the block -/

/-- A host write touches the block alone, whatever is left of the host program. -/
theorem busWrite_setProgram (off : Nat) (v : Word) (ops : List HostOp) (s : State) :
    busWrite off v (s.setProgram ops) = (busWrite off v s).setProgram ops := by
  unfold busWrite
  split
  next r _ =>
    cases r with
    | cmd =>
      simp only [State.writeReg, State.setProgram_busy]
      split <;> rfl
    | _ => rfl
  · rfl

/-- A host operation leaves the block alone, or it is a write and has the window's write effect. -/
theorem runHostOp_block {op : HostOp} {rest : List HostOp} {s t : State}
    (h : runHostOp op rest s = .next t) :
    t = { s with env := t.env } ∨
    ∃ width off v, op = .write width off v ∧
      t = { busWrite off (s.hostValue v) s with env := t.env } := by
  rcases runHostOp_cases h with ⟨x, width, off, -, -, rfl⟩ | ⟨width, off, v, hop, -, rfl⟩ |
    ⟨-, rfl⟩ | ⟨x, e, -, rfl⟩ | ⟨c, l, -, rfl⟩
  · exact .inl rfl
  · exact .inr ⟨width, off, v, hop, by rw [busWrite_setProgram]; rfl⟩
  · exact .inl rfl
  · exact .inl rfl
  · exact .inl rfl

/-! ## CAPR (10_state.md R35) -/

@[simp] theorem busWrite_capr (off : Nat) (v : Word) (s : State) :
    (busWrite off v s).capr = s.capr := by
  rcases busWrite_cases off v s with
    ⟨-, -, h⟩ | ⟨-, -, h⟩ | ⟨-, h⟩ | ⟨-, h⟩ | ⟨-, h⟩ | ⟨-, h⟩ | ⟨-, -, -, -, -, h⟩ <;> simp [h]

theorem runHostOp_capr {op : HostOp} {rest : List HostOp} {s t : State}
    (h : runHostOp op rest s = .next t) : t.capr = s.capr := by
  rcases runHostOp_block h with ht | ⟨width, off, v, -, ht⟩
  · rw [ht]
  · rw [ht]
    exact busWrite_capr off _ s

/-- Settles O27: no turn writes CAPR. -/
theorem caprIsConstant : Obligations.CaprIsConstant := by
  intro s t h
  rcases step_cases h with ⟨-, rfl⟩ | ⟨-, -, rfl⟩ | ⟨i, -, -, -, hexec⟩ | ⟨e, -, -, -, rfl⟩ |
    ⟨-, -, rfl⟩ | ⟨op, rest, -, -, hrun⟩
  · rfl
  · rfl
  · exact (exec_completion hexec).capr
  · rfl
  · rfl
  · exact runHostOp_capr (s := s.popTurn) hrun

/-! ## CMDOVR (10_state.md R31) -/

/-- Only a STATUS write with bit 8 set clears CMDOVR. -/
theorem busWrite_clears_cmdovr {off : Nat} {v : Word} {s : State} (hset : s.cmdovr = true)
    (hclear : (busWrite off v s).cmdovr = false) : off = 0x04 ∧ v.getLsbD 8 = true := by
  rcases busWrite_cases off v s with
    ⟨-, -, h⟩ | ⟨-, -, h⟩ | ⟨hoff, h⟩ | ⟨-, h⟩ | ⟨-, h⟩ | ⟨-, h⟩ | ⟨-, -, -, -, -, h⟩ <;>
    rw [h] at hclear
  · simp at hclear
  · simp [hset] at hclear
  · refine ⟨hoff, ?_⟩
    rw [State.writeStatus_cmdovr, hset] at hclear
    simpa using hclear
  all_goals simp [hset] at hclear

/-- Of the host's operations only a STATUS write with bit 8 set clears CMDOVR. -/
theorem runHostOp_clears_cmdovr {op : HostOp} {rest : List HostOp} {s t : State}
    (h : runHostOp op rest s = .next t) (hset : s.cmdovr = true) (hclear : t.cmdovr = false) :
    ∃ width v, op = .write width 0x04 v ∧ (s.hostValue v).getLsbD 8 = true := by
  rcases runHostOp_block h with ht | ⟨width, off, v, rfl, ht⟩
  · have hkept : t.cmdovr = s.cmdovr := by rw [ht]
    simp [hkept, hset] at hclear
  · obtain ⟨rfl, hbit⟩ := busWrite_clears_cmdovr hset ((congrArg State.cmdovr ht).symm.trans hclear)
    exact ⟨width, v, rfl, hbit⟩

/-- Of all steps only a reset and a STATUS write with bit 8 set clear CMDOVR. -/
theorem step_clears_cmdovr {s t : State} (hset : s.cmdovr = true) (h : step s = .next t)
    (hclear : t.cmdovr = false) :
    s.turn = .reset ∨
    (s.turn = .host ∧ ∃ width v rest, s.env.program = .write width 0x04 v :: rest ∧
      (s.hostValue v).getLsbD 8 = true) := by
  have hkept (heq : t.cmdovr = s.cmdovr) : False := by simp [heq, hset] at hclear
  rcases step_cases h with ⟨hturn, -⟩ | ⟨-, -, rfl⟩ | ⟨i, -, -, -, hexec⟩ | ⟨e, -, -, -, rfl⟩ |
    ⟨-, -, rfl⟩ | ⟨op, rest, hturn, hprog, hrun⟩
  · exact .inl hturn
  · exact (hkept rfl).elim
  · exact (hkept (exec_completion hexec).cmdovr).elim
  · exact (hkept rfl).elim
  · exact (hkept rfl).elim
  · obtain ⟨width, v, rfl, hbit⟩ := runHostOp_clears_cmdovr hrun hset hclear
    exact .inr ⟨hturn, width, v, rest, hprog, hbit⟩

theorem step_of_reset_turn {s : State} (h : s.turn = .reset) :
    step s = .next s.popTurn.resetBlock := by
  simp [step, takeTurn, h]

/-- Settles O26: the drop sets CMDOVR, the accept keeps it, a STATUS write and a reset clear it, and no
other step does. -/
theorem cmdovrIsSticky : Obligations.CmdovrIsSticky := by
  refine ⟨fun s v hb => ?_, fun s v hb => ?_, fun s v hv => ?_, fun s hturn => ?_,
    fun s t hset h hclear => step_clears_cmdovr hset h hclear⟩
  · rw [busWrite_cmd_busy hb, State.dropCmd_cmdovr]
  · rw [busWrite_cmd_idle hb, State.accept_cmdovr]
  · rw [show busWrite 0x04 v s = s.writeStatus v from busWrite_offset .status v s,
      State.writeStatus_cmdovr, hv, if_pos rfl]
  · exact ⟨_, step_of_reset_turn hturn, rfl⟩

/-! ## The invariant (10_state.md R35, R38; 20_memory.md R58; 60_exceptions.md R141) -/

/-- Settles O7: the reset state has an idle engine, no error and an empty table. -/
theorem resetMeetsInvariant : Obligations.ResetMeetsInvariant := by
  show Invariant State.reset
  decide

/-- A reset gives the invariant's STATUS and an empty table, and keeps the capacity. -/
theorem invariant_resetBlock {s : State} (h : Invariant s) : Invariant s.resetBlock := by
  obtain ⟨-, hcap, -⟩ := h
  obtain ⟨hstatus, -⟩ := resetMeetsInvariant
  exact ⟨hstatus, hcap, rfl, by simp, by simp, fun _ => ⟨rfl, rfl⟩⟩

theorem statusInv_finish (s : State) (okv : Bool) : StatusInv (s.finish okv) :=
  ⟨by simp, by simp, by simp⟩

theorem statusInv_raiseErr (s : State) (c : ErrCode) : StatusInv (s.raiseErr c) :=
  ⟨by simp, by simp, c.code_range.2⟩

/-- An error end keeps the invariant: it writes nothing but STATUS. -/
theorem invariant_raiseErr {s : State} (h : Invariant s) (c : ErrCode) :
    Invariant (s.raiseErr c) :=
  ⟨statusInv_raiseErr s c, h.2⟩

/-- A slot that reads as empty is not listed: the table lists filled slots only. -/
theorem TableInv.find_eq_none {s : State} (h : TableInv s) {k : Nat} (hk : (s.slot k).res = 0) :
    Assoc.find s.tab k = none := by
  obtain ⟨-, -, hlisted, -, -⟩ := h
  cases hf : Assoc.find s.tab k with
  | none => rfl
  | some e =>
    have hres : e.res = 0 := by simpa [State.slot, hf] using hk
    exact absurd hres (hlisted _ (Assoc.find_some_mem hf)).2

/-- While there is room, TCOUNT counts one more entry without wrapping. -/
theorem TableInv.tcount_succ {s : State} (h : TableInv s) (hvalid : s.tvalid = true)
    (hroom : s.tcount ≠ s.capr) : (s.tcount + 1).toNat = s.tcount.toNat + 1 := by
  have hle : s.tcount.toNat ≤ s.capr.toNat := h.tcount_le_cap hvalid
  have hne : s.tcount.toNat ≠ s.capr.toNat := fun heq => hroom (BitVec.eq_of_toNat_eq heq)
  have hlt : s.capr.toNat < 2 ^ 32 := s.capr.isLt
  have hone : (1 : Word).toNat = 1 := rfl
  rw [BitVec.toNat_add, hone, Nat.mod_eq_of_lt (by omega)]

/-- TINS's insertion keeps the legal table: a filled entry more, inside the capacity, and counted. -/
theorem TableInv.insert {s : State} (h : TableInv s) (hvalid : s.tvalid = true)
    (hroom : s.tcount ≠ s.capr) {k : Nat} (hk : k < s.cap) (hempty : (s.slot k).res = 0)
    {e : Slot} (he : e.res ≠ 0) : TableInv (s.setSlot k e).countInsert := by
  have hnotlisted := h.find_eq_none hempty
  have hcount := h.tcount_succ hvalid hroom
  have hwrite : s.tab.write k e = Assoc.put s.tab k e :=
    if_neg (by rintro rfl; exact he rfl)
  obtain ⟨hcap, hwf, hlisted, hlen, -⟩ := h
  refine ⟨hcap, Memory.wf_setSlot hwf k e, fun p hp => ?_, fun _ => ?_, ?_⟩
  · rw [State.countInsert_tab, State.setSlot_tab, hwrite] at hp
    rcases Assoc.mem_put hp with rfl | hp
    · exact ⟨hk, he⟩
    · exact hlisted p hp
  · rw [State.countInsert_tab, State.setSlot_tab, hwrite, Assoc.length_put hnotlisted,
      ← hlen hvalid]
    exact hcount
  · simp [hvalid]

/-- Every completion keeps the legal table. -/
theorem Completion.tableInv {i : Instr} {s t : State} (h : Completion s i t) (hs : TableInv s) :
    TableInv t := by
  cases h with
  | result hi v okv => exact hs
  | bezout v S T okv => exact hs
  | cleared => exact ⟨hs.1, rfl, by simp, by simp, by simp⟩
  | inserted hvalid hresidue hroom hwalk =>
    have hpos : 0 < s.cap := Nat.lt_of_lt_of_le (by decide) hs.1
    obtain ⟨i, -, rfl, hempty, -⟩ := State.findEmpty_eq_some (State.homeSlot_lt hpos _) hwalk
    exact hs.insert hvalid hroom (Nat.mod_lt _ hpos) hempty hresidue
  | error hi c => exact hs

/-- Every completion ends with a legal STATUS. -/
theorem Completion.statusInv {i : Instr} {s t : State} (h : Completion s i t) : StatusInv t := by
  cases h with
  | error hi c => exact statusInv_raiseErr s c
  | _ => exact statusInv_finish _ _

/-- The accept clears DONE, OK and ERR as it sets BUSY (10_state.md R38). -/
theorem statusInv_accept (s : State) (v : Word) : StatusInv (s.accept v) :=
  ⟨by simp, by simp, by simp⟩

/-- A STATUS write sets no bit (10_state.md R25). -/
theorem statusInv_writeStatus {s : State} (h : StatusInv s) (v : Word) :
    StatusInv (s.writeStatus v) := by
  obtain ⟨hbusy, herr, hcode⟩ := h
  refine ⟨fun hb => ?_, herr, hcode⟩
  obtain ⟨hdone, hok, hzero⟩ := hbusy hb
  exact ⟨by simp [State.writeStatus, hdone], hok, hzero⟩

/-- Every host write keeps the invariant. -/
theorem invariant_busWrite {s : State} (h : Invariant s) (off : Nat) (v : Word) :
    Invariant (busWrite off v s) := by
  obtain ⟨hstatus, htable⟩ := h
  rcases busWrite_cases off v s with
    ⟨-, -, hw⟩ | ⟨-, -, hw⟩ | ⟨-, hw⟩ | ⟨-, hw⟩ | ⟨-, hw⟩ | ⟨-, hw⟩ | ⟨-, -, -, -, -, hw⟩ <;> rw [hw]
  · exact ⟨hstatus, htable⟩
  · exact ⟨statusInv_accept s v, htable⟩
  · exact ⟨statusInv_writeStatus hstatus v, htable⟩
  all_goals exact ⟨hstatus, htable⟩

/-- Every host operation keeps the invariant. -/
theorem invariant_runHostOp {op : HostOp} {rest : List HostOp} {s t : State} (h : Invariant s)
    (hrun : runHostOp op rest s = .next t) : Invariant t := by
  rcases runHostOp_block hrun with ht | ⟨width, off, v, -, ht⟩
  · rw [ht]
    exact invariant_setEnv h _
  · rw [ht]
    exact invariant_setEnv (invariant_busWrite h off _) _

/-- Settles O8: each agent's turn keeps the invariant. -/
theorem stepKeepsInvariant : Obligations.StepKeepsInvariant := by
  intro s t hs h
  have hpop : Invariant s.popTurn := (invariant_popTurn s).2 hs
  rcases step_cases h with ⟨-, rfl⟩ | ⟨-, -, rfl⟩ | ⟨i, -, -, -, hexec⟩ | ⟨e, -, -, -, rfl⟩ |
    ⟨-, -, rfl⟩ | ⟨op, rest, -, -, hrun⟩
  · exact invariant_resetBlock hpop
  · exact hpop
  · exact ⟨(exec_completion hexec).statusInv, (exec_completion hexec).tableInv hpop.2⟩
  · exact invariant_raiseErr hpop _
  · exact hpop
  · exact invariant_runHostOp hpop hrun

/-! ## A command in progress ends (10_state.md R43, 70_reset_and_hazards.md R166) -/

/-- What is left of the host program from a label is admitted where every labelled part is. -/
theorem ProgramAdmitted.hostLabel {s : State} (h : ProgramAdmitted s) (l : HostLabel) :
    ∀ op ∈ s.hostLabel l, op.admissible = true := by
  obtain ⟨-, hlabels⟩ := h
  unfold State.hostLabel
  split
  next ops hfind => exact hlabels _ (Assoc.find_some_mem hfind)
  · simp

/-- A host operation keeps the schedule and the labels, and goes on with the rest of the program, with
itself again, or from a label. -/
theorem runHostOp_env {op : HostOp} {rest : List HostOp} {s t : State}
    (h : runHostOp op rest s = .next t) :
    t.env.schedule = s.env.schedule ∧ t.env.labels = s.env.labels ∧
    (t.env.program = rest ∨ t.env.program = op :: rest ∨
      ∃ l, t.env.program = s.hostLabel l) := by
  rcases runHostOp_cases h with ⟨x, width, off, -, -, rfl⟩ | ⟨width, off, v, -, -, rfl⟩ |
    ⟨rfl, rfl⟩ | ⟨x, e, -, rfl⟩ | ⟨c, l, -, rfl⟩
  · exact ⟨rfl, rfl, .inl rfl⟩
  · simp
  · refine ⟨rfl, rfl, ?_⟩
    cases (busRead 0x04 s).getLsbD 0 with
    | true => exact .inr (.inl rfl)
    | false => exact .inl rfl
  · exact ⟨rfl, rfl, .inl rfl⟩
  · refine ⟨rfl, rfl, ?_⟩
    cases s.hostCond c with
    | true => exact .inr (.inr ⟨l, rfl⟩)
    | false => exact .inl rfl

theorem ProgramAdmitted.runHostOp {op : HostOp} {rest : List HostOp} {s t : State}
    (h : ProgramAdmitted s) (hprog : s.env.program = op :: rest)
    (hrun : runHostOp op rest s = .next t) : ProgramAdmitted t := by
  have hlabel := h.hostLabel
  obtain ⟨hops, hlabels⟩ := h
  obtain ⟨-, hsame, hcont⟩ := runHostOp_env hrun
  rw [hprog] at hops
  refine ⟨?_, by rwa [hsame]⟩
  rcases hcont with hrest | hagain | ⟨l, hjump⟩
  · rw [hrest]
    exact fun o ho => hops o (List.mem_cons_of_mem _ ho)
  · rwa [hagain]
  · rw [hjump]
    exact hlabel l

/-- No host write ends a command in progress. -/
theorem busWrite_busy_of_busy {s : State} (h : s.busy = true) (off : Nat) (v : Word) :
    (busWrite off v s).busy = true := by
  rcases busWrite_cases off v s with
    ⟨-, -, hw⟩ | ⟨-, -, hw⟩ | ⟨-, hw⟩ | ⟨-, hw⟩ | ⟨-, hw⟩ | ⟨-, hw⟩ | ⟨-, -, -, -, -, hw⟩ <;>
    simp [hw, h]

theorem runHostOp_busy_of_busy {op : HostOp} {rest : List HostOp} {s t : State}
    (hrun : runHostOp op rest s = .next t) (h : s.busy = true) : t.busy = true := by
  rcases runHostOp_block hrun with ht | ⟨width, off, v, -, ht⟩
  · exact (congrArg State.busy ht).trans h
  · exact (congrArg State.busy ht).trans (busWrite_busy_of_busy h off _)

/-- A step with a command in progress ends it, or it is the host's and takes a turn off the schedule. -/
theorem step_busy_cases {s t : State} (hb : s.busy = true) (hp : ProgramAdmitted s)
    (h : step s = .next t) :
    t.busy = false ∨
    (s.turn = .host ∧ t.busy = true ∧ ProgramAdmitted t ∧
      t.env.schedule = s.env.schedule.tail) := by
  rcases step_cases h with ⟨-, rfl⟩ | ⟨-, hidle, -⟩ | ⟨i, -, -, -, hexec⟩ | ⟨e, -, -, -, rfl⟩ |
    ⟨hturn, -, rfl⟩ | ⟨op, rest, hturn, hprog, hrun⟩
  · exact .inl rfl
  · simp [hb] at hidle
  · exact .inl (exec_completion hexec).busy
  · exact .inl rfl
  · exact .inr ⟨hturn, hb, hp, rfl⟩
  · exact .inr ⟨hturn, runHostOp_busy_of_busy hrun hb,
      ProgramAdmitted.runHostOp (s := s.popTurn) hp hprog hrun, (runHostOp_env hrun).1⟩

/-- A legal state whose host makes admitted accesses only has a next state. -/
theorem step_next_of_admitted {s : State} (h : Invariant s) (hp : ProgramAdmitted s) :
    ∃ t, step s = .next t := by
  rcases step_next_or_busError h with hnext | ⟨-, -, op, rest, hprog, hrefused⟩
  · exact hnext
  · have hadmitted := hp.1 op (by simp [hprog])
    simp [hrefused] at hadmitted

/-- The state runs into one with an idle engine within `k` steps. -/
def State.IdleWithin (k : Nat) (s : State) : Prop :=
  ∃ n ≤ k, ∃ t, Host.Core.run Sys2Proof.core n s = .next t ∧ State.busy t = false

theorem State.idleWithin_of_idle {s : State} (h : s.busy = false) (k : Nat) : s.IdleWithin k :=
  ⟨0, Nat.zero_le k, s, rfl, h⟩

/-- One step more reaches the idle state of the state after it. -/
theorem State.IdleWithin.of_step {s t : State} {k : Nat} (h : step s = .next t)
    (ht : t.IdleWithin k) : s.IdleWithin (k + 1) := by
  obtain ⟨n, hn, u, hrun, hidle⟩ := ht
  refine ⟨n + 1, Nat.succ_le_succ hn, u, ?_, hidle⟩
  have hcore : Sys2Proof.core.step s = .next t := h
  simp only [Host.Core.run, hcore, hrun]

/-- Once the schedule is used up, the busy engine moves. -/
theorem State.turn_of_busy {s : State} (hs : s.env.schedule = []) (hb : s.busy = true) :
    s.turn = .engine := by
  simp [State.turn, hs, State.eagerTurn, hb]

/-- Each scheduled turn ends the command or is the host's; after the last the engine moves. -/
theorem State.idleWithin_of_busy {ts : List Turn} {s : State} (hts : s.env.schedule = ts)
    (hs : Invariant s) (hp : ProgramAdmitted s) (hb : s.busy = true) :
    s.IdleWithin (ts.length + 1) := by
  induction ts generalizing s with
  | nil =>
    obtain ⟨t, ht⟩ := step_next_of_admitted hs hp
    rcases step_busy_cases hb hp ht with hidle | ⟨hturn, -⟩
    · exact .of_step ht (State.idleWithin_of_idle hidle 0)
    · simp [State.turn_of_busy hts hb] at hturn
  | cons turn ts ih =>
    obtain ⟨t, ht⟩ := step_next_of_admitted hs hp
    rcases step_busy_cases hb hp ht with hidle | ⟨-, hbusy, hadmitted, htail⟩
    · exact .of_step ht (State.idleWithin_of_idle hidle _)
    · exact .of_step ht
        (ih (by rw [htail, hts, List.tail_cons]) (stepKeepsInvariant s t hs ht) hadmitted hbusy)

/-- Settles O12, by induction on the schedule. -/
theorem commandInProgressEnds : Obligations.CommandInProgressEnds :=
  fun _ hs hp hb => State.idleWithin_of_busy rfl hs hp hb

end Sys2Proof.Machine
end

section
/-! PROOFS. The statements of the window and the table's storage (20_memory.md): the byte order, where the
window lies and which accesses it admits, what the host's reads and writes do, which results stay, and the
table's probe sequence and filled slots. -/

namespace Sys2Proof.Machine

/-! ## The byte order (20_memory.md R54) -/

/-- The bytes of a joined word, at the bits R54 gives them. -/
theorem extract_bytes_append (b0 b1 b2 b3 : Byte) :
    (b3 ++ b2 ++ b1 ++ b0).extractLsb' 0 8 = b0 ∧ (b3 ++ b2 ++ b1 ++ b0).extractLsb' 8 8 = b1 ∧
    (b3 ++ b2 ++ b1 ++ b0).extractLsb' 16 8 = b2 ∧
    (b3 ++ b2 ++ b1 ++ b0).extractLsb' 24 8 = b3 := by
  refine ⟨extract_append_low _ _, ?_, ?_, ?_⟩
  · rw [BitVec.extractLsb'_append_eq_of_le (by decide)]
    exact extract_append_low _ _
  · rw [BitVec.extractLsb'_append_eq_of_le (by decide),
      BitVec.extractLsb'_append_eq_of_le (by decide)]
    exact extract_append_low _ _
  · rw [BitVec.extractLsb'_append_eq_of_le (by decide),
      BitVec.extractLsb'_append_eq_of_le (by decide)]
    exact extract_append_high _ _

/-- A byte joined below the bits above it is one longer run of the word's bits. -/
theorem extract_append_byteOfWord (w : Word) (k n : Nat) :
    w.extractLsb' (8 * (k + 1)) n ++ byteOfWord w k = w.extractLsb' (8 * k) (n + 8) :=
  BitVec.extractLsb'_append_extractLsb'_eq_extractLsb' (Nat.mul_succ 8 k)

/-- A word's four bytes, joined again, are the word. -/
theorem wordOfBytes_bytesOfWord (w : Word) : wordOfBytes (bytesOfWord w) = some w := by
  have hjoin : byteOfWord w 3 ++ byteOfWord w 2 ++ byteOfWord w 1 ++ byteOfWord w 0 = w :=
    calc byteOfWord w 3 ++ byteOfWord w 2 ++ byteOfWord w 1 ++ byteOfWord w 0
        = w.extractLsb' (8 * 2) (8 + 8) ++ byteOfWord w 1 ++ byteOfWord w 0 :=
          congrArg (fun b => b ++ byteOfWord w 1 ++ byteOfWord w 0)
            (extract_append_byteOfWord w 2 8)
      _ = w.extractLsb' (8 * 1) (8 + 8 + 8) ++ byteOfWord w 0 :=
          congrArg (· ++ byteOfWord w 0) (extract_append_byteOfWord w 1 (8 + 8))
      _ = w.extractLsb' (8 * 0) (8 + 8 + 8 + 8) := extract_append_byteOfWord w 0 (8 + 8 + 8)
      _ = w := BitVec.extractLsb'_eq_self
  exact congrArg some hjoin

/-- Settles O4: joining and splitting are inverse, byte by byte. -/
theorem byteOrderRoundTrip : Obligations.ByteOrderRoundTrip := by
  refine ⟨wordOfBytes_bytesOfWord, fun b0 b1 b2 b3 w hw => ?_⟩
  obtain rfl : b3 ++ b2 ++ b1 ++ b0 = w := Option.some.inj hw
  exact extract_bytes_append b0 b1 b2 b3

/-! ## The window (20_memory.md R51 to R53) -/

/-- An address and an offset of the window name each other (20_memory.md R51). -/
theorem windowOffset_eq_some {addr off : Nat} :
    windowOffset addr = some off ↔ addr = windowAddress off ∧ off ≤ 0x3F := by
  have hbytes : Config.windowBytes = 64 := rfl
  unfold windowOffset windowAddress
  rw [Option.ite_none_right_eq_some, Option.some.injEq]
  omega

/-- Settles O25: BASE is 64 times the platform's choice, and an offset is the distance from it. -/
theorem windowAddresses : Obligations.WindowAddresses :=
  ⟨Nat.mul_mod_right _ _, fun _ hoff => windowOffset_eq_some.2 ⟨rfl, hoff⟩,
    fun _ _ h => windowOffset_eq_some.1 h⟩

theorem busRead_of_reserved {off : Nat} (h : busRegAt off = none) (s : State) :
    busRead off s = 0 := by
  simp [busRead, h]

/-- The registers past OPN are read-only and the words past them reserved (10_state.md R22). -/
theorem busWrite_past_opn {off : Nat} (h : BusReg.opn.offset < off) (v : Word) (s : State) :
    busWrite off v s = s := by
  have hoff : 0x10 < off := h
  rcases busWrite_cases off v s with
    ⟨h0, -⟩ | ⟨h0, -⟩ | ⟨h0, -⟩ | ⟨h0, -⟩ | ⟨h0, -⟩ | ⟨h0, -⟩ | ⟨-, -, -, -, -, hw⟩
  case inr.inr.inr.inr.inr.inr => exact hw
  all_goals omega

/-- Settles O19: the reserved words have no register, and nothing past OPN takes a write. -/
theorem readOnlyAndReservedIgnoreWrites : Obligations.ReadOnlyAndReservedIgnoreWrites := by
  have hreserved : ∀ off ∈ [0x30, 0x34, 0x38, 0x3C],
      busRegAt off = none ∧ BusReg.opn.offset < off := by decide
  have hreadOnly : ∀ off ∈ [0x14, 0x18, 0x1C, 0x20, 0x24, 0x28, 0x2C],
      BusReg.opn.offset < off := by decide
  refine fun s v => ⟨fun off hoff => ?_, fun off hoff => busWrite_past_opn (hreadOnly off hoff) v s⟩
  obtain ⟨hnone, hpast⟩ := hreserved off hoff
  exact ⟨busRead_of_reserved hnone s, busWrite_past_opn hpast v s⟩

theorem admitted_iff (width : AccessWidth) (off : Nat) :
    admitted width off = true ↔ width = .w32 ∧ off % 4 = 0 ∧ off ≤ 0x3C := by
  simp [admitted, and_assoc]

/-! ## The host's turn (20_memory.md R52, R56; 60_exceptions.md R146) -/

/-- The host's turn is its next operation. -/
theorem step_of_host_turn {s : State} {op : HostOp} {rest : List HostOp} (hturn : s.turn = .host)
    (hprog : s.env.program = op :: rest) : step s = runHostOp op rest s.popTurn := by
  simp [step, takeTurn, hturn, hostTurn, hprog]

theorem runHostOp_of_refused {op : HostOp} (h : op.admissible = false) (rest : List HostOp)
    (s : State) : runHostOp op rest s = .fault .busError := by
  cases op with
  | read x width off => exact if_neg (Bool.eq_false_iff.1 h)
  | write width off v => exact if_neg (Bool.eq_false_iff.1 h)
  | wait => cases h
  | host x e => cases h
  | goto c l => cases h

/-- Settles O24: the admission's three conditions, and the bus error of the host's refused access. -/
theorem refusedAccessIsBusError : Obligations.RefusedAccessIsBusError :=
  ⟨admitted_iff, fun s _ rest hturn hprog h =>
    (step_of_host_turn hturn hprog).trans (runHostOp_of_refused h rest s.popTurn)⟩

theorem runHostOp_read {width : AccessWidth} {off : Nat} (h : admitted width off = true)
    (x : HostVar) (rest : List HostOp) (s : State) :
    runHostOp (.read x width off) rest s =
      .next (((s.setProgram rest).setHostVar x (busRead off s).toNat).record
        { dir := .read, off := off, value := busRead off s }) := if_pos h

theorem runHostOp_write {width : AccessWidth} {off : Nat} (h : admitted width off = true)
    (v : HostValue) (rest : List HostOp) (s : State) :
    runHostOp (.write width off v) rest s =
      .next ((busWrite off (s.hostValue v) (s.setProgram rest)).record
        { dir := .write, off := off, value := s.hostValue v }) := if_pos h

/-- What the window returns does not depend on the schedule. -/
@[simp] theorem busRead_popTurn (off : Nat) (s : State) : busRead off s.popTurn = busRead off s := by
  unfold busRead
  split
  next r _ => cases r <;> rfl
  · rfl

/-- What a host value is depends on the host variables alone. -/
theorem State.hostValue_popTurn (v : HostValue) (s : State) :
    s.popTurn.hostValue v = s.hostValue v := by
  cases v <;> rfl

/-- A host write touches the block alone, whatever the host's side holds. -/
theorem busWrite_setEnv (off : Nat) (v : Word) (e : Env) (s : State) :
    busWrite off v { s with env := e } = { busWrite off v s with env := e } := by
  unfold busWrite
  split
  next r _ =>
    cases r with
    | cmd =>
      simp only [State.writeReg]
      split <;> rfl
    | _ => rfl
  · rfl

/-- A host variable holds what it was given last; every other one holds what it held. -/
theorem State.hostVar_setHostVar (s : State) (x y : HostVar) (z : Int) :
    (s.setHostVar x z).hostVar y = if y = x then z else s.hostVar y := by
  rw [State.hostVar, State.setHostVar_env_vars, Assoc.find_put]
  by_cases hy : y = x
  · simp [hy]
  · simp [hy, State.hostVar]

/-- Settles O21: an admitted read writes the host's side alone, and of its variables only its own. -/
theorem hostReadHasNoSideEffect : Obligations.HostReadHasNoSideEffect := by
  intro s x width off rest hturn hprog hadm
  have hvar (y : HostVar) (z : Int) :
      ((s.popTurn.setProgram rest).setHostVar x z).hostVar y = if y = x then z else s.hostVar y :=
    State.hostVar_setHostVar _ x y z
  refine ⟨_, (step_of_host_turn hturn hprog).trans (runHostOp_read hadm x rest _), rfl, rfl, rfl,
    ?_, fun y hy => (hvar y _).trans (if_neg hy), ?_⟩
  · exact ((hvar x _).trans (if_pos rfl)).trans (by rw [busRead_popTurn])
  · simp

/-- Settles O22: an admitted write's effect on the block is the window's, and the host's side goes on. -/
theorem hostWriteTakesEffect : Obligations.HostWriteTakesEffect := by
  intro s width off v rest hturn hprog hadm
  have hblock (w : Word) : busWrite off w (s.popTurn.setProgram rest) =
      { busWrite off w s with env := (s.popTurn.setProgram rest).env } :=
    busWrite_setEnv off w _ s
  refine ⟨_, (step_of_host_turn hturn hprog).trans (runHostOp_write hadm v rest _), ?_, ?_⟩
  · rw [State.hostValue_popTurn, hblock]
    rfl
  · simp [State.hostValue_popTurn]

/-! ## Results (20_memory.md R65, 70_reset_and_hazards.md R170) -/

/-- A host write leaves the results as they are, or it is the accept of a command. -/
theorem busWrite_sameResults_or_accept (off : Nat) (v : Word) (s : State) :
    SameResults s (busWrite off v s) ∨ (s.busy = false ∧ (busWrite off v s).busy = true) := by
  rcases busWrite_cases off v s with
    ⟨-, -, hw⟩ | ⟨-, hidle, hw⟩ | ⟨-, hw⟩ | ⟨-, hw⟩ | ⟨-, hw⟩ | ⟨-, hw⟩ | ⟨-, -, -, -, -, hw⟩ <;> rw [hw]
  case inr.inl => exact .inr ⟨hidle, rfl⟩
  all_goals exact .inl (by simp [SameResults])

/-- A host operation leaves the results as they are, or it accepts a command. -/
theorem runHostOp_sameResults_or_accept {op : HostOp} {rest : List HostOp} {s t : State}
    (h : runHostOp op rest s = .next t) :
    SameResults s t ∨ (s.busy = false ∧ t.busy = true) := by
  rcases runHostOp_block h with ht | ⟨width, off, v, -, ht⟩
  · rw [ht]
    simp [SameResults]
  · rw [ht]
    exact busWrite_sameResults_or_accept off _ s

/-- Settles O28: of the host's operations only an accept touches a result, and it takes BUSY from 0
to 1. -/
theorem resultsStayUntilNextAccept : Obligations.ResultsStayUntilNextAccept := by
  intro s t hturn h hnoAccept
  have hhost : SameResults s t ∨ (s.busy = false ∧ t.busy = true) := by
    rcases step_cases h with ⟨hother, -⟩ | ⟨hother, -⟩ | ⟨-, hother, -⟩ | ⟨-, hother, -⟩ |
      ⟨-, -, rfl⟩ | ⟨op, rest, -, -, hrun⟩
    case inr.inr.inr.inr.inl => exact .inl (by simp [SameResults])
    case inr.inr.inr.inr.inr => exact runHostOp_sameResults_or_accept (s := s.popTurn) hrun
    all_goals simp [hturn] at hother
  rcases hhost with hsame | ⟨hidle, hbusy⟩
  · exact hsame
  · simp [hidle, hbusy] at hnoAccept

/-! ## The probe sequence (20_memory.md R59) -/

/-- No two positions of a walk of `cap` positions are the same slot. -/
theorem walk_injective {start cap i j : Nat} (hi : i < cap) (hj : j < cap)
    (h : (start + i) % cap = (start + j) % cap) : i = j :=
  (Nat.ModEq.add_left_cancel' start h).eq_of_lt_of_lt hi hj

/-- Settles O56: a walk of CAP positions comes to every slot, and to none twice. -/
theorem probeSequenceVisitsEverySlotOnce : Obligations.ProbeSequenceVisitsEverySlotOnce := by
  intro s r k hk
  refine ⟨fun _ => rfl, ?_⟩
  obtain ⟨i, hi, hik⟩ := exists_walk_eq (State.homeSlot_lt (Nat.zero_lt_of_lt hk) r) hk
  exact ⟨i, hi, hik, fun j hj hjk => walk_injective hj hi (hjk.trans hik.symm)⟩

/-! ## Filled slots (20_memory.md R60) -/

/-- Every completion but TCLR's leaves the filled slots as they are: TINS writes an empty one. -/
theorem Completion.slot_of_filled {i : Instr} {s t : State} (h : Completion s i t)
    (hi : i ≠ .tclr) (hs : TableInv s) (hvalid : s.tvalid = true) {k : Nat}
    (hfilled : (s.slot k).res ≠ 0) : t.slot k = s.slot k := by
  obtain ⟨hcap, hwf, -⟩ := hs
  cases h with
  | result hi v okv => rfl
  | bezout v S T okv => rfl
  | cleared => exact absurd rfl hi
  | @inserted j _ _ _ hwalk =>
    have hpos : 0 < s.cap := Nat.lt_of_lt_of_le (by decide) hcap
    obtain ⟨-, -, -, hempty, -⟩ := State.findEmpty_eq_some (State.homeSlot_lt hpos _) hwalk
    have hne : k ≠ j := by
      rintro rfl
      exact hfilled hempty
    calc _ = (s.setSlot j { exp := s.lb, res := s.la }).slot k := rfl
      _ = s.slot k := by rw [State.slot_setSlot hwf hvalid, if_neg hne]
  | error hi c => rfl

/-- No host write touches a slot. -/
@[simp] theorem busWrite_slot (off : Nat) (v : Word) (s : State) (k : Nat) :
    (busWrite off v s).slot k = s.slot k := by
  rcases busWrite_cases off v s with
    ⟨-, -, h⟩ | ⟨-, -, h⟩ | ⟨-, h⟩ | ⟨-, h⟩ | ⟨-, h⟩ | ⟨-, h⟩ | ⟨-, -, -, -, -, h⟩ <;> rw [h] <;> rfl

theorem runHostOp_slot {op : HostOp} {rest : List HostOp} {s t : State}
    (h : runHostOp op rest s = .next t) (k : Nat) : t.slot k = s.slot k := by
  rcases runHostOp_block h with ht | ⟨width, off, v, -, ht⟩
  · rw [ht]
    rfl
  · rw [ht]
    exact busWrite_slot off _ s k

/-- Settles O59: of the turns only a completion writes a slot, and TINS's is an empty one. -/
theorem filledSlotKeptUntilClearOrReset : Obligations.FilledSlotKeptUntilClearOrReset := by
  intro s t k hs hvalid hfilled h hnotReset hnotTclr
  rcases step_cases h with ⟨hturn, -⟩ | ⟨-, -, rfl⟩ | ⟨i, hturn, hbusy, hdecode, hexec⟩ |
    ⟨e, -, -, -, rfl⟩ | ⟨-, -, rfl⟩ | ⟨op, rest, -, -, hrun⟩
  · exact absurd hturn hnotReset
  · rfl
  · have hi : i ≠ .tclr := by
      rintro rfl
      exact hnotTclr ⟨hturn, hbusy, hdecode⟩
    exact (exec_completion hexec).slot_of_filled (s := s.popTurn) hi
      ((invariant_popTurn s).2 hs).2 hvalid hfilled
  · rfl
  · rfl
  · exact runHostOp_slot (s := s.popTurn) hrun k

end Sys2Proof.Machine
end

section
/-! PROOFS. The statements of the encoding and of HASM (30_encoding.md): the decoder and the
encoder, the words that are no command, which operands a command ignores, the host's WAIT, computations and
branches, which programs HASM assembles, and why a paced host loses no command. -/

namespace Sys2Proof.Machine

/-! ## The decoder and the encoder (30_encoding.md R75 to R84) -/

/-- The two readings of the opcode map agree (30_encoding.md R78). -/
theorem instrOfOpcode_eq_some {op : BitVec 8} {i : Instr} :
    instrOfOpcode op = some i ↔ op = opcodeOf i := by
  constructor
  · intro h
    unfold instrOfOpcode at h
    split_ifs at h with hop hop hop hop hop hop hop <;> cases h <;> exact hop
  · rintro rfl
    cases i <;> rfl

/-- An opcode is outside the map exactly when no command has it. -/
theorem instrOfOpcode_eq_none {op : BitVec 8} :
    instrOfOpcode op = none ↔ ∀ i, op ≠ opcodeOf i := by
  simp only [Option.eq_none_iff_forall_ne_some, ne_eq, instrOfOpcode_eq_some]

/-- The opcode check comes first (30_encoding.md R81, R82). -/
theorem decode_of_illegal_opcode {w : Word} (h : instrOfOpcode (opcodeField w) = none) :
    decode w = .error .illegalOpcode := by
  simp [decode, h]

/-- On a legal opcode the reserved bits decide (30_encoding.md R83). -/
theorem decode_of_legal_opcode {w : Word} {i : Instr}
    (h : instrOfOpcode (opcodeField w) = some i) :
    decode w = if reservedField w = 0 then .ok i else .error .reservedBits := by
  simp [decode, h]

/-- A word is a command by its two fields (30_encoding.md R79). -/
theorem decode_eq_ok {w : Word} {i : Instr} :
    decode w = .ok i ↔ opcodeField w = opcodeOf i ∧ reservedField w = 0 := by
  rw [← instrOfOpcode_eq_some]
  cases hop : instrOfOpcode (opcodeField w) with
  | none => simp [decode_of_illegal_opcode hop]
  | some j =>
    rw [decode_of_legal_opcode hop]
    split <;> simp_all

/-- A word is an ILLEGAL_OPCODE word by its opcode alone (30_encoding.md R82). -/
theorem decode_eq_illegalOpcode {w : Word} :
    decode w = .error .illegalOpcode ↔ ∀ i, opcodeField w ≠ opcodeOf i := by
  rw [← instrOfOpcode_eq_none]
  cases hop : instrOfOpcode (opcodeField w) with
  | none => simp [decode_of_illegal_opcode hop]
  | some j =>
    rw [decode_of_legal_opcode hop]
    split <;> simp

/-- A RESERVED_BITS word has a legal opcode (30_encoding.md R83). -/
theorem decode_eq_reservedBits {w : Word} :
    decode w = .error .reservedBits ↔
      (∃ i, opcodeField w = opcodeOf i) ∧ reservedField w ≠ 0 := by
  simp only [← instrOfOpcode_eq_some]
  cases hop : instrOfOpcode (opcodeField w) with
  | none => simp [decode_of_illegal_opcode hop]
  | some j =>
    rw [decode_of_legal_opcode hop]
    split <;> simp_all

/-- A word is its reserved bits above its opcode (30_encoding.md R75). -/
theorem reservedField_append_opcodeField (w : Word) : reservedField w ++ opcodeField w = w :=
  calc reservedField w ++ opcodeField w = w.extractLsb' 0 (24 + 8) :=
        BitVec.extractLsb'_append_extractLsb'_eq_extractLsb' rfl
    _ = w := BitVec.extractLsb'_eq_self

/-- A word is a command by its whole match value (30_encoding.md R79). -/
theorem decode_eq_ok_iff_encode {w : Word} {i : Instr} : decode w = .ok i ↔ w = encode i := by
  constructor
  · intro h
    obtain ⟨hop, hrsvd⟩ := decode_eq_ok.1 h
    rw [← reservedField_append_opcodeField w, hop, hrsvd]
    rfl
  · rintro rfl
    exact decode_encode i

/-- The encoder zero-extends the opcode. -/
theorem encode_eq_setWidth (i : Instr) : encode i = (opcodeOf i).setWidth 32 := by
  cases i <;> rfl

/-- The decoder's mask of a command word takes in every bit. -/
theorem word_and_mask (w : Word) : w &&& 0xFFFFFFFF#32 = w :=
  BitVec.and_allOnes

/-- Settles O1: the decoder answers a command for the encoder's word of it and for no other word. -/
theorem decodeEncodeAgree : Obligations.DecodeEncodeAgree := by
  refine ⟨fun i _ => decode_encode i, fun w i => decode_eq_ok, fun w i => ?_, encode_eq_setWidth⟩
  rw [word_and_mask]
  exact decode_eq_ok_iff_encode

/-- Settles O2: each outcome of the decoder, by the word's fields. -/
theorem everyWordIsCommandOrErrorWord : Obligations.EveryWordIsCommandOrErrorWord := fun _ =>
  ⟨decode_eq_illegalOpcode, decode_eq_reservedBits, exists_congr fun _ => decode_eq_ok_iff_encode⟩

/-- Settles O3: the command words are the encoder's; the error words are decoded. -/
theorem opcodeMapWords : Obligations.OpcodeMapWords :=
  ⟨decode_encode .gcd, decode_encode .xgcd, decode_encode .modinv, decode_encode .modpow,
    decode_encode .tclr, decode_encode .tins, decode_encode .tlkp, by decide, by decide, by decide⟩

/-! ## The words that are no command (30_encoding.md R82, R83) -/

/-- The busy engine ends a word that is no command in the decoder's error (30_encoding.md R81). -/
theorem engineTurn_of_decode_error {s : State} {e : DecodeError} (hb : s.busy = true)
    (hd : decode s.lcmd = .error e) :
    engineTurn s = .next (s.raiseErr (ErrCode.ofDecode e)) := by
  simp [engineTurn, completion, hb, hd]

/-- The opcodes of the map, as numbers (30_encoding.md R78). -/
theorem exists_eq_opcodeOf_iff {op : BitVec 8} :
    (∃ i, op = opcodeOf i) ↔
      op.toNat = 0x01 ∨ op.toNat = 0x02 ∨ op.toNat = 0x03 ∨ op.toNat = 0x04 ∨ op.toNat = 0x10 ∨
      op.toNat = 0x11 ∨ op.toNat = 0x12 := by
  constructor
  · rintro ⟨i, rfl⟩
    cases i <;> decide
  · rintro (h | h | h | h | h | h | h)
    · exact ⟨.gcd, BitVec.eq_of_toNat_eq h⟩
    · exact ⟨.xgcd, BitVec.eq_of_toNat_eq h⟩
    · exact ⟨.modinv, BitVec.eq_of_toNat_eq h⟩
    · exact ⟨.modpow, BitVec.eq_of_toNat_eq h⟩
    · exact ⟨.tclr, BitVec.eq_of_toNat_eq h⟩
    · exact ⟨.tins, BitVec.eq_of_toNat_eq h⟩
    · exact ⟨.tlkp, BitVec.eq_of_toNat_eq h⟩

/-- Settles O11: such a word is accepted, and its completion is the decoder's error end. -/
theorem illegalWordsCompleteWithError : Obligations.IllegalWordsCompleteWithError := by
  refine ⟨fun s w hidle => ?_, fun s hturn hb hop => ?_, fun s hturn hb hop hrsvd => ?_⟩
  · rw [busWrite_cmd_idle hidle]
    exact ⟨rfl, rfl⟩
  · have hillegal : decode s.lcmd = .error .illegalOpcode := by
      refine decode_eq_illegalOpcode.2 fun i hi => ?_
      have hlegal := exists_eq_opcodeOf_iff.1 ⟨i, hi⟩
      simp only [opcodeField] at hlegal
      omega
    exact (step_of_engine_turn hturn).trans (engineTurn_of_decode_error (s := s.popTurn) hb hillegal)
  · have hreserved : decode s.lcmd = .error .reservedBits :=
      decode_eq_reservedBits.2 ⟨exists_eq_opcodeOf_iff.2 hop, hrsvd⟩
    exact (step_of_engine_turn hturn).trans
      (engineTurn_of_decode_error (s := s.popTurn) hb hreserved)

/-! ## A paced host loses no command (30_encoding.md R88, 70_reset_and_hazards.md R169) -/

section
variable (b : Bool) (rest : List HostOp)

@[simp] theorem paced_nil : paced b [] = true := by rfl
@[simp] theorem paced_wait : paced b (.wait :: rest) = paced false rest := by rfl
@[simp] theorem paced_read (x : HostVar) (width : AccessWidth) (off : Nat) :
    paced b (.read x width off :: rest) = paced b rest := by rfl
@[simp] theorem paced_host (x : HostVar) (e : HostExpr) :
    paced b (.host x e :: rest) = paced b rest := by rfl
@[simp] theorem paced_goto (c : HostCond) (l : HostLabel) :
    paced b (.goto c l :: rest) = (!b && paced b rest) := by rfl
@[simp] theorem paced_write_cmd (width : AccessWidth) (v : HostValue) :
    paced b (.write width 0x00 v :: rest) = (!b && paced true rest) := by rfl
theorem paced_write_other {off : Nat} (h : off ≠ 0x00) (width : AccessWidth) (v : HostValue) :
    paced b (.write width off v :: rest) = paced b rest := if_neg h

end

/-- A program that is paced whatever the engine does is paced from an idle one. -/
theorem paced_idle_of_paced_busy {ops : List HostOp} (h : paced true ops = true) :
    paced false ops = true := by
  induction ops with
  | nil => exact paced_nil false
  | cons op rest ih =>
    cases op with
    | read x width off =>
      rw [paced_read] at h ⊢
      exact ih h
    | write width off v =>
      by_cases hoff : off = 0x00
      · subst hoff
        simp at h
      · rw [paced_write_other _ _ hoff] at h ⊢
        exact ih h
    | wait => rwa [paced_wait] at h ⊢
    | host x e =>
      rw [paced_host] at h ⊢
      exact ih h
    | goto c l => simp at h

/-- An idle engine leaves the same host program paced. -/
theorem PacedHost.of_idle {s t : State} (h : PacedHost s) (hidle : t.busy = false)
    (henv : t.env.program = s.env.program ∧ t.env.labels = s.env.labels) : PacedHost t := by
  obtain ⟨hprog, hlabels⟩ := h
  refine ⟨?_, by rwa [henv.2]⟩
  rw [hidle, henv.1]
  cases hb : s.busy with
  | false => rwa [hb] at hprog
  | true => exact paced_idle_of_paced_busy (by rwa [hb] at hprog)

/-- A paced host branches to a paced program. -/
theorem PacedHost.hostLabel {s : State} (h : PacedHost s) (l : HostLabel) :
    paced false (s.hostLabel l) = true := by
  obtain ⟨-, hlabels⟩ := h
  unfold State.hostLabel
  split
  next ops hfind => exact hlabels _ (Assoc.find_some_mem hfind)
  · exact paced_nil false

/-- Only a write to CMD touches BUSY. -/
theorem busWrite_busy_of_ne_cmd {off : Nat} (hoff : off ≠ 0x00) (v : Word) (s : State) :
    (busWrite off v s).busy = s.busy := by
  rcases busWrite_cases off v s with
    ⟨h, -⟩ | ⟨h, -⟩ | ⟨-, h⟩ | ⟨-, h⟩ | ⟨-, h⟩ | ⟨-, h⟩ | ⟨-, -, -, -, -, h⟩
  · exact absurd h hoff
  · exact absurd h hoff
  all_goals simp [h]

/-- Only a dropped command sets CMDOVR (10_state.md R31, R39). -/
theorem busWrite_cmdovr_clear {off : Nat} {s : State} (v : Word) (hclear : s.cmdovr = false)
    (hidle : off = 0x00 → s.busy = false) : (busWrite off v s).cmdovr = false := by
  rcases busWrite_cases off v s with
    ⟨hoff, hb, -⟩ | ⟨-, -, h⟩ | ⟨-, h⟩ | ⟨-, h⟩ | ⟨-, h⟩ | ⟨-, h⟩ | ⟨-, -, -, -, -, h⟩
  · simp [hidle hoff] at hb
  all_goals simp [h, hclear]

/-- The bit of STATUS that `WAIT` tests is BUSY (10_state.md R24, 30_encoding.md R86). -/
theorem busRead_status_busy (s : State) : (busRead 0x04 s).getLsbD 0 = s.busy :=
  s.statusWord_getLsbD 0

/-- A write of a paced program leaves the rest paced: an accept makes the engine busy, and no other write
touches BUSY. -/
theorem paced_after_write {width : AccessWidth} {off : Nat} {v : HostValue} {rest : List HostOp}
    {s : State} (h : paced s.busy (.write width off v :: rest) = true) (w : Word) :
    paced (busWrite off w s).busy rest = true := by
  by_cases hoff : off = 0x00
  · subst hoff
    rw [paced_write_cmd, Bool.and_eq_true, Bool.not_eq_true'] at h
    rw [busWrite_cmd_idle h.1, State.accept_busy]
    exact h.2
  · rw [busWrite_busy_of_ne_cmd hoff]
    rwa [paced_write_other _ _ hoff] at h

/-- Each operation of a paced host leaves it paced. -/
theorem PacedHost.of_runHostOp {op : HostOp} {rest : List HostOp} {s t : State} (h : PacedHost s)
    (hprog : s.env.program = op :: rest) (hrun : runHostOp op rest s = .next t) : PacedHost t := by
  have hjump := h.hostLabel
  obtain ⟨hpaced, hlabels⟩ := h
  obtain ⟨-, hsame, -⟩ := runHostOp_env hrun
  rw [hprog] at hpaced
  refine ⟨?_, by rwa [hsame]⟩
  rcases runHostOp_cases hrun with ⟨x, width, off, rfl, -, rfl⟩ | ⟨width, off, v, rfl, -, rfl⟩ |
    ⟨rfl, rfl⟩ | ⟨x, e, rfl, rfl⟩ | ⟨c, l, rfl, rfl⟩
  · rwa [paced_read] at hpaced
  · rw [busWrite_setProgram]
    exact paced_after_write hpaced _
  · cases hb : s.busy <;>
      simpa [-BitVec.getLsbD_eq_getElem, busRead_status_busy, hb] using hpaced
  · rwa [paced_host] at hpaced
  · rw [paced_goto, Bool.and_eq_true, Bool.not_eq_true'] at hpaced
    obtain ⟨hidle, hrest⟩ := hpaced
    cases hc : s.hostCond c with
    | true => simpa [hidle, hc] using hjump l
    | false => simpa [hc] using hrest

/-- No operation of a paced host has a command dropped. -/
theorem PacedHost.cmdovr_of_runHostOp {op : HostOp} {rest : List HostOp} {s t : State}
    (h : PacedHost s) (hclear : s.cmdovr = false) (hprog : s.env.program = op :: rest)
    (hrun : runHostOp op rest s = .next t) : t.cmdovr = false := by
  obtain ⟨hpaced, -⟩ := h
  rcases runHostOp_block hrun with ht | ⟨width, off, v, rfl, ht⟩
  · exact (congrArg State.cmdovr ht).trans hclear
  · refine (congrArg State.cmdovr ht).trans (busWrite_cmdovr_clear _ hclear ?_)
    rintro rfl
    rw [hprog, paced_write_cmd, Bool.and_eq_true, Bool.not_eq_true'] at hpaced
    exact hpaced.1

theorem Completion.env {i : Instr} {s t : State} (h : Completion s i t) : t.env = s.env := by
  cases h <;> rfl

/-- Settles O30: a completion and a reset make the engine idle, and the host's own turn keeps to its
paced program. -/
theorem pacedProgramNeverOverruns : Obligations.PacedProgramNeverOverruns := by
  intro s t hs hclear h
  rcases step_cases h with ⟨-, rfl⟩ | ⟨-, -, rfl⟩ | ⟨i, -, -, -, hexec⟩ | ⟨e, -, -, -, rfl⟩ |
    ⟨-, -, rfl⟩ | ⟨op, rest, -, hprog, hrun⟩
  · exact ⟨hs.of_idle rfl ⟨rfl, rfl⟩, rfl⟩
  · exact ⟨hs, hclear⟩
  · have hdone := exec_completion hexec
    refine ⟨hs.of_idle hdone.busy ?_, hdone.cmdovr.trans hclear⟩
    rw [hdone.env]
    exact ⟨rfl, rfl⟩
  · exact ⟨hs.of_idle rfl ⟨rfl, rfl⟩, hclear⟩
  · exact ⟨hs, hclear⟩
  · exact ⟨PacedHost.of_runHostOp (s := s.popTurn) hs hprog hrun,
      PacedHost.cmdovr_of_runHostOp (s := s.popTurn) hs hclear hprog hrun⟩

/-! ## Programs of pseudo-instructions (30_encoding.md R87, R88) -/

/-- Only CMD lies at offset 0 (10_state.md R22). -/
theorem BusReg.offset_ne_zero {r : BusReg} (h : r ≠ .cmd) : r.offset ≠ 0x00 := by
  cases r with
  | cmd => exact absurd rfl h
  | _ => simp [BusReg.offset]

/-- A write to a register other than CMD waits for nothing. -/
theorem paced_hasmWrite {r : BusReg} (h : r ≠ .cmd) (b : Bool) (v : HostValue)
    (rest : List HostOp) : paced b (hasmWrite r v :: rest) = paced b rest :=
  paced_write_other b rest (BusReg.offset_ne_zero h) .w32 v

/-- A command's issue ends in its `WAIT`, so the engine is idle again after it. -/
theorem paced_hasmIssue (i : Instr) (rest : List HostOp) :
    paced false (hasmIssue i ++ rest) = paced false rest := by rfl

/-- Every statement but a raw command write takes an idle engine to an idle one. -/
theorem paced_expand_append {h : Hasm} (hraw : h.rawCommand = false) (rest : List HostOp)
    (hrest : paced false rest = true) : paced false (h.expand ++ rest) = true := by
  cases h with
  | wr r v =>
    have hr : r ≠ .cmd := of_decide_eq_false hraw
    exact (paced_hasmWrite hr false v.value rest).trans hrest
  | rd x r => simpa [Hasm.expand] using hrest
  | wait => simpa [Hasm.expand] using hrest
  | host x e => simpa [Hasm.expand] using hrest
  | goto c l => simpa [Hasm.expand] using hrest
  | label l => exact hrest
  | clrdone => simpa [Hasm.expand, paced_hasmWrite] using hrest
  | clrovr => simpa [Hasm.expand, paced_hasmWrite] using hrest
  | _ => simpa [Hasm.expand, paced_hasmWrite, paced_hasmIssue] using hrest

/-- A program of such statements is paced from an idle engine. -/
theorem paced_flatMap_expand {p : List Hasm} (hraw : ∀ h ∈ p, h.rawCommand = false) :
    paced false (p.flatMap Hasm.expand) = true := by
  induction p with
  | nil => rfl
  | cons h rest ih =>
    rw [List.flatMap_cons]
    exact paced_expand_append (hraw h (by simp)) _
      (ih fun g hg => hraw g (List.mem_cons_of_mem h hg))

/-- What a label stands before is the operations of a program's last lines. -/
theorem exists_suffix_of_mem_hasmLabels {p : List Hasm} {q : HostLabel × List HostOp}
    (hq : q ∈ hasmLabels p) : ∃ rest, rest <:+ p ∧ q.2 = rest.flatMap Hasm.expand := by
  induction p with
  | nil => cases hq
  | cons h rest ih =>
    have hlater (hq : q ∈ hasmLabels rest) :
        ∃ tail, tail <:+ h :: rest ∧ q.2 = tail.flatMap Hasm.expand := by
      obtain ⟨tail, htail, hops⟩ := ih hq
      exact ⟨tail, htail.trans (List.suffix_cons h rest), hops⟩
    unfold hasmLabels at hq
    split at hq
    · rcases List.mem_cons.1 hq with rfl | hq
      · exact ⟨rest, List.suffix_cons h rest, rfl⟩
      · exact hlater hq
    · exact hlater hq

/-- What assembly answers, and when. -/
theorem assemble_eq_some {p : List Hasm} {c : HostCode} :
    assemble p = some c ↔
      ((∀ h ∈ p, h.wellFormed = true) ∧ (p.filterMap Hasm.labelOf).Nodup ∧
        ∀ l ∈ p.filterMap Hasm.target, l ∈ p.filterMap Hasm.labelOf) ∧
      { ops := p.flatMap Hasm.expand, labels := hasmLabels p } = c := by
  unfold assemble
  rw [Option.ite_none_right_eq_some, Option.some.injEq, Bool.and_eq_true, List.all_eq_true,
    hasmLinked, Bool.and_eq_true, decide_eq_true_eq, List.all_eq_true]
  simp only [decide_eq_true_eq]

/-- Settles O29: each statement takes an idle engine to an idle one, from the start and from every
label. -/
theorem pseudoInstructionProgramsArePaced : Obligations.PseudoInstructionProgramsArePaced := by
  intro p c s hraw hasm hidle
  obtain ⟨-, rfl⟩ := assemble_eq_some.1 hasm
  refine ⟨?_, fun q hq => ?_⟩
  · show paced s.busy (p.flatMap Hasm.expand) = true
    rw [hidle]
    exact paced_flatMap_expand hraw
  · obtain ⟨rest, hsuffix, hops⟩ := exists_suffix_of_mem_hasmLabels hq
    rw [hops]
    exact paced_flatMap_expand fun h hh => hraw h (hsuffix.subset hh)

/-- Settles O31: assembly asks for well-formed lines and labels in order, and for nothing else. -/
theorem assembleRefusesWideNumbers : Obligations.AssembleRefusesWideNumbers := by
  refine ⟨fun r n => ?_, fun p => ?_⟩
  · by_cases hn : n < 2 ^ 32
    · rw [if_pos hn, assemble_eq_some]
      refine ⟨⟨?_, List.nodup_nil, fun _ hl => absurd hl List.not_mem_nil⟩, rfl⟩
      intro h hh
      obtain rfl := List.mem_singleton.1 hh
      exact decide_eq_true hn
    · rw [if_neg hn, Option.eq_none_iff_forall_ne_some]
      intro c hc
      obtain ⟨⟨hwf, -⟩, -⟩ := assemble_eq_some.1 hc
      exact hn (of_decide_eq_true (hwf _ (List.mem_singleton_self _)))
  · constructor
    · rintro ⟨c, hc⟩
      exact (assemble_eq_some.1 hc).1
    · exact fun h => ⟨_, assemble_eq_some.2 ⟨h, rfl⟩⟩

/-! ## The operands a command does not use (30_encoding.md R76, 10_state.md R32) -/

/-- Another latched second operand. -/
def State.setLb (v : Word) (s : State) : State := { s with lb := v }

/-- Another latched modulus. -/
def State.setLn (v : Word) (s : State) : State := { s with ln := v }

section
variable (s : State) (v : Word)

@[simp] theorem State.setLb_tvalid : (s.setLb v).tvalid = s.tvalid := by rfl
@[simp] theorem State.setLb_la : (s.setLb v).la = s.la := by rfl
@[simp] theorem State.setLb_opndA : (s.setLb v).opndA = s.opndA := by rfl
@[simp] theorem State.setLb_opndN : (s.setLb v).opndN = s.opndN := by rfl
@[simp] theorem State.setLb_cap : (s.setLb v).cap = s.cap := by rfl
@[simp] theorem State.setLb_slot (k : Nat) : (s.setLb v).slot k = s.slot k := by rfl

@[simp] theorem State.setLn_tvalid : (s.setLn v).tvalid = s.tvalid := by rfl
@[simp] theorem State.setLn_la : (s.setLn v).la = s.la := by rfl
@[simp] theorem State.setLn_opndA : (s.setLn v).opndA = s.opndA := by rfl
@[simp] theorem State.setLn_opndB : (s.setLn v).opndB = s.opndB := by rfl
@[simp] theorem State.setLn_tcount : (s.setLn v).tcount = s.tcount := by rfl
@[simp] theorem State.setLn_capr : (s.setLn v).capr = s.capr := by rfl
@[simp] theorem State.setLn_cap : (s.setLn v).cap = s.cap := by rfl
@[simp] theorem State.setLn_slot (k : Nat) : (s.setLn v).slot k = s.slot k := by rfl
@[simp] theorem State.setLn_homeSlot (r : Nat) : (s.setLn v).homeSlot r = s.homeSlot r := by rfl

@[simp] theorem State.lookup_setLb (r : Word) : (s.setLb v).lookup r = s.lookup r :=
  State.lookup_congr (s.setLb_cap v) (s.setLb_slot v) r

@[simp] theorem State.lookup_setLn (r : Word) : (s.setLn v).lookup r = s.lookup r :=
  State.lookup_congr (s.setLn_cap v) (s.setLn_slot v) r

@[simp] theorem State.findEmpty_setLn (fuel k : Nat) :
    (s.setLn v).findEmpty fuel k = s.findEmpty fuel k :=
  State.findEmpty_congr (s.setLn_cap v) (s.setLn_slot v) fuel k

end

/-- Only TCLR does not use the first operand. -/
theorem operandUse_a_eq_false {i : Instr} : (operandUse i).a = false ↔ i = .tclr := by
  cases i <;> decide

/-- The commands that do not use the second operand pass its latch through. -/
theorem exec_setLb {i : Instr} (h : (operandUse i).b = false) (v : Word) (s : State) :
    exec i (s.setLb v) = mapNext (State.setLb v) (exec i s) := by
  cases i with
  | gcd => cases h
  | xgcd => cases h
  | modinv =>
    simp only [exec, execModinv, State.setLb_opndA, State.setLb_opndN]
    split <;> rfl
  | modpow => cases h
  | tclr => rfl
  | tins => cases h
  | tlkp =>
    simp only [exec, execTlkp, State.setLb_tvalid, State.setLb_la, State.lookup_setLb]
    split
    · rfl
    · split <;> rfl

/-- The commands that do not use the modulus pass its latch through. -/
theorem exec_setLn {i : Instr} (h : (operandUse i).n = false) (v : Word) (s : State) :
    exec i (s.setLn v) = mapNext (State.setLn v) (exec i s) := by
  cases i with
  | gcd =>
    simp only [exec, execGcd, State.setLn_opndA, State.setLn_opndB]
    split <;> rfl
  | xgcd =>
    simp only [exec, execXgcd, State.setLn_opndA, State.setLn_opndB]
    split <;> rfl
  | modinv => cases h
  | modpow => cases h
  | tclr => rfl
  | tins =>
    simp only [exec, execTins, State.setLn_tvalid, State.setLn_la, State.setLn_opndA,
      State.setLn_tcount, State.setLn_capr, State.setLn_cap, State.setLn_homeSlot,
      State.findEmpty_setLn]
    split
    · rfl
    · split
      · rfl
      · split
        · rfl
        · split <;> rfl
  | tlkp =>
    simp only [exec, execTlkp, State.setLn_tvalid, State.setLn_la, State.lookup_setLn]
    split
    · rfl
    · split <;> rfl

/-- Settles O34: TCLR reads no latch, and the other commands pass their unused latches through. -/
theorem unusedOperandsIgnored : Obligations.UnusedOperandsIgnored := by
  refine fun i s v => ⟨fun ha => ?_, fun hb => exec_setLb hb v s, fun hn => exec_setLn hn v s⟩
  obtain rfl := operandUse_a_eq_false.1 ha
  rfl

/-! ## WAIT, host computations and branches (30_encoding.md R86) -/

/-- A host computation depends on the host variables alone. -/
@[simp] theorem State.hostExpr_popTurn (e : HostExpr) (s : State) :
    s.popTurn.hostExpr e = s.hostExpr e := by
  induction e with
  | lit n => rfl
  | var x => rfl
  | add a b iha ihb => simp only [State.hostExpr, iha, ihb]
  | sub a b iha ihb => simp only [State.hostExpr, iha, ihb]
  | mul a b iha ihb => simp only [State.hostExpr, iha, ihb]
  | div a b iha ihb => simp only [State.hostExpr, iha, ihb]
  | mod a b iha ihb => simp only [State.hostExpr, iha, ihb]
  | bits a hi lo ih => simp only [State.hostExpr, ih]

/-- A host condition depends on the host variables alone. -/
@[simp] theorem State.hostCond_popTurn (c : HostCond) (s : State) :
    s.popTurn.hostCond c = s.hostCond c := by
  induction c with
  | always => rfl
  | eq a b => simp only [State.hostCond, State.hostExpr_popTurn]
  | lt a b => simp only [State.hostCond, State.hostExpr_popTurn]
  | not c ih => simp only [State.hostCond, ih]
  | and c d ihc ihd => simp only [State.hostCond, ihc, ihd]

/-- Settles O23: each of the three operations writes the host's side alone. -/
theorem waitAndHostStatements : Obligations.WaitAndHostStatements := by
  refine ⟨fun s rest hturn hprog => ?wait, fun s x e rest hturn hprog => ?host,
    fun s c l rest hturn hprog => ?goto⟩
  case wait =>
    refine ⟨_, step_of_host_turn hturn hprog, rfl, ?_, fun hb => ?_, fun hb => ?_⟩
    · exact (State.hostVar_setHostVar _ hostVarT hostVarT _).trans
        ((if_pos rfl).trans (by rw [busRead_popTurn]))
    · simp [-BitVec.getLsbD_eq_getElem, busRead_status_busy, hb]
    · simp [-BitVec.getLsbD_eq_getElem, busRead_status_busy, hb]
  case host =>
    have hvar (y : HostVar) (z : Int) :
        ((s.popTurn.setProgram rest).setHostVar x z).hostVar y =
          if y = x then z else s.hostVar y := State.hostVar_setHostVar _ x y z
    refine ⟨_, step_of_host_turn hturn hprog, rfl, rfl, rfl, ?_,
      fun y hy => (hvar y _).trans (if_neg hy)⟩
    exact ((hvar x _).trans (if_pos rfl)).trans (State.hostExpr_popTurn e s)
  case goto =>
    refine ⟨_, step_of_host_turn hturn hprog, rfl, rfl, rfl, fun hc => ?_, fun hc => ?_⟩
    · rw [State.setProgram_env_program, State.hostCond_popTurn, if_pos hc]
      rfl
    · rw [State.setProgram_env_program, State.hostCond_popTurn, hc]
      rfl

end Sys2Proof.Machine
end

section
/-! PROOFS. The statements of the GCD unit (40_gcd_unit.md): GCD, the extended Euclidean loop behind
XGCD (that it ends, its Bézout identity, the size of its coefficients, the swap), and MODINV. -/

namespace Sys2Proof.Machine

/-! ## Operands (40_gcd_unit.md R95) -/

theorem State.opndA_eq_zero {s : State} : s.opndA = 0 ↔ s.la = 0 := BitVec.toNat_inj (y := 0#32)

theorem State.opndB_eq_zero {s : State} : s.opndB = 0 ↔ s.lb = 0 := BitVec.toNat_inj (y := 0#32)

/-- Some operand of GCD and XGCD is 0, in the form `exec` tests and in the form of the latches. -/
theorem State.zero_operand_iff {s : State} : s.opndA = 0 ∨ s.opndB = 0 ↔ s.la = 0 ∨ s.lb = 0 :=
  or_congr State.opndA_eq_zero State.opndB_eq_zero

theorem State.opndA_ne_zero {s : State} (h : s.la ≠ 0) : s.opndA ≠ 0 := mt State.opndA_eq_zero.1 h

theorem State.opndB_ne_zero {s : State} (h : s.lb ≠ 0) : s.opndB ≠ 0 := mt State.opndB_eq_zero.1 h

/-- RES holds every value up to a latched operand without wrapping (40_gcd_unit.md R95). -/
theorem State.setRes_toNat {s : State} {v : Nat} {w : Word} (h : v ≤ w.toNat) :
    (s.setRes v).res.toNat = v := by
  rw [State.setRes_res, BitVec.toNat_ofNat, Nat.mod_eq_of_lt (h.trans_lt w.isLt)]

/-- RES takes a latched operand as it is. -/
theorem State.setRes_latch (s : State) (w : Word) : s.setRes w.toNat = { s with res := w } := by
  rw [State.setRes, BitVec.ofNat_toNat, BitVec.setWidth_eq]

/-! ## GCD (40_gcd_unit.md R96 to R98) -/

theorem exec_gcd_of_zero {s : State} (h : s.la = 0 ∨ s.lb = 0) :
    exec .gcd s = .next ((s.setRes 0).finish false) :=
  if_pos (State.zero_operand_iff.2 h)

theorem exec_gcd_of_nonzero {s : State} (ha : s.la ≠ 0) (hb : s.lb ≠ 0) :
    exec .gcd s = .next ((s.setRes (Nat.gcd s.opndA s.opndB)).finish true) :=
  if_neg (mt State.zero_operand_iff.1 (not_or.2 ⟨ha, hb⟩))

/-- Settles O36: the zero branch of GCD writes RES and STATUS alone. -/
theorem gcdZeroOperand : Obligations.GcdZeroOperand := fun _ h => exec_gcd_of_zero h

/-- Settles O37: RES holds the mathematical gcd, which fits because it divides the first operand. -/
theorem gcdGreatestCommonDivisor : Obligations.GcdGreatestCommonDivisor := by
  intro s ha hb
  have hpos : 0 < s.la.toNat := Nat.pos_of_ne_zero (State.opndA_ne_zero ha)
  refine ⟨_, exec_gcd_of_nonzero ha hb, rfl, ?_⟩
  rw [State.finish_res, State.setRes_toNat (Nat.gcd_le_left _ hpos)]
  refine ⟨Nat.gcd_dvd_left _ _, Nat.gcd_dvd_right _ _, fun d => Nat.dvd_gcd,
    Nat.gcd_pos_of_pos_left _ hpos, fun k => rfl,
    _, exec_gcd_of_nonzero (s := { s with la := s.lb, lb := s.la }) hb ha, ?_⟩
  exact congrArg (BitVec.ofNat 32) (Nat.gcd_comm _ _)

/-! ## The Euclidean loop ends (70_reset_and_hazards.md R177) -/

theorem euclidStep_r0 (e : EuclidRegs) : (euclidStep e).r0 = e.r1 := (euclidStep_remainders e).1

theorem euclidStep_r1 (e : EuclidRegs) : (euclidStep e).r1 = e.r0 % e.r1 :=
  (euclidStep_remainders e).2

/-- Lamé's bound: `n` iterations are enough for remainders below consecutive Fibonacci numbers. -/
theorem euclidLoop_r1_eq_zero {n : Nat} {e : EuclidRegs} (hlt : e.r1 < e.r0)
    (hfib : e.r1 < Nat.fib (n + 2) ∨ e.r0 < Nat.fib (n + 3)) : (euclidLoop n e).r1 = 0 := by
  induction n generalizing e with
  | zero =>
    have hsmall : e.r1 < 1 ∨ e.r0 < 2 := hfib
    show e.r1 = 0
    omega
  | succ n ih =>
    by_cases hz : e.r1 = 0
    · rw [euclidLoop_done hz, hz]
    rw [euclidLoop_step hz]
    apply ih <;> rw [euclidStep_r0, euclidStep_r1]
    · exact Nat.mod_lt _ (Nat.pos_of_ne_zero hz)
    · have hsub : e.r0 % e.r1 ≤ e.r0 - e.r1 :=
        Nat.mod_eq_sub_mod hlt.le ▸ Nat.mod_le _ _
      have hrec : Nat.fib (n + 4) = Nat.fib (n + 2) + Nat.fib (n + 3) := Nat.fib_add_two
      have hcases : e.r1 < Nat.fib (n + 3) ∨ e.r0 < Nat.fib (n + 4) := hfib
      omega

/-- Equal operands take one iteration (40_gcd_unit.md R100). -/
theorem euclidLoop_start_self {x : Nat} (hx : x ≠ 0) :
    euclidLoop Config.euclidIterations (euclidStart x x) =
      { r0 := x, r1 := 0, s0 := 0, s1 := 1, t0 := 1, t1 := -1 } := by
  have hstep : euclidStep (euclidStart x x) =
      { r0 := x, r1 := 0, s0 := 0, s1 := 1, t0 := 1, t1 := -1 } := by
    simp [euclidStep, euclidStart, Nat.div_self (Nat.pos_of_ne_zero hx)]
  rw [Config.euclidIterations, euclidLoop_step (e := euclidStart x x) hx, hstep,
    euclidLoop_done rfl]

/-- The model's bound on the iterations never ends the loop of u32 operands. -/
theorem euclidLoop_start_r1_eq_zero {x y : Nat} (hy : y ≠ 0) (hle : y ≤ x) (hx : x < 2 ^ 32) :
    (euclidLoop Config.euclidIterations (euclidStart x y)).r1 = 0 := by
  rcases hle.lt_or_eq with hlt | rfl
  · have hfib : 2 ^ 32 < Nat.fib (Config.euclidIterations + 3) := by
      norm_num [Config.euclidIterations]
    exact euclidLoop_r1_eq_zero hlt (.inr (hx.trans hfib))
  · exact congrArg EuclidRegs.r1 (euclidLoop_start_self hy)

/-! ## What an iteration keeps (40_gcd_unit.md R99, R101, R102) -/

/-- Two successive coefficients of the loop beside two successive remainders: their signs alternate,
their sizes do not fall after the first 0, and the sizes, weighed with the remainders, give the operand
`m`. At the end of the loop this bounds the coefficient. -/
structure CoeffPair (m r0 r1 : Nat) (c0 c1 : Int) : Prop where
  alternate : c0 * c1 ≤ 0
  grow : c1 = 0 ∨ c0.natAbs ≤ c1.natAbs
  weigh : r0 * c1.natAbs + r1 * c0.natAbs = m

/-- Opposite signs: the sizes of the two terms of the loop's difference add up. -/
theorem natAbs_sub_mul_of_alternate {c0 c1 : Int} (h : c0 * c1 ≤ 0) (q : Nat) :
    (c0 - q * c1).natAbs = c0.natAbs + q * c1.natAbs := by
  have hq : (0 : Int) ≤ q := Int.natCast_nonneg q
  have hsum : (c0 + -(q * c1)).natAbs = c0.natAbs + (-(q * c1)).natAbs := by
    rcases mul_nonpos_iff.1 h with ⟨h0, h1⟩ | ⟨h0, h1⟩
    · exact Int.natAbs_add_of_nonneg h0 (neg_nonneg.2 (mul_nonpos_of_nonneg_of_nonpos hq h1))
    · exact Int.natAbs_add_of_nonpos h0 (neg_nonpos.2 (mul_nonneg hq h1))
  rw [sub_eq_add_neg, hsum, Int.natAbs_neg, Int.natAbs_mul, Int.natAbs_natCast]

theorem CoeffPair.step {m r0 r1 : Nat} {c0 c1 : Int} (h : CoeffPair m r0 r1 c0 c1) (h1 : r1 ≠ 0)
    (hle : r1 ≤ r0) : CoeffPair m r1 (r0 % r1) c1 (c0 - (r0 / r1 : Nat) * c1) := by
  have hsize := natAbs_sub_mul_of_alternate h.alternate (r0 / r1)
  have hq : 0 < r0 / r1 := Nat.div_pos hle (Nat.pos_of_ne_zero h1)
  refine ⟨?_, .inr ?_, ?_⟩
  · have hsq : 0 ≤ ((r0 / r1 : Nat) : Int) * (c1 * c1) :=
      mul_nonneg (Int.natCast_nonneg _) (mul_self_nonneg c1)
    linarith [h.alternate]
  · rw [hsize]
    exact (Nat.le_mul_of_pos_left _ hq).trans (Nat.le_add_left _ _)
  · calc r1 * (c0 - (r0 / r1 : Nat) * c1).natAbs + r0 % r1 * c1.natAbs
        = (r1 * (r0 / r1) + r0 % r1) * c1.natAbs + r1 * c0.natAbs := by rw [hsize]; ring
      _ = m := by rw [Nat.div_add_mod, h.weigh]

/-- At the end of the loop the last coefficient is at most the operand over the gcd. -/
theorem CoeffPair.natAbs_le_div {m g : Nat} {c0 c1 : Int} (h : CoeffPair m g 0 c0 c1) (hm : m ≠ 0) :
    c0.natAbs ≤ m / g := by
  have hend : g * c1.natAbs = m := by simpa using h.weigh
  have hg : 0 < g := Nat.pos_of_ne_zero fun hz => hm (by rw [← hend, hz, Nat.zero_mul])
  have hc1 : c1 ≠ 0 := fun hz => hm (by rw [← hend, hz, Int.natAbs_zero, Nat.mul_zero])
  rw [← hend, Nat.mul_div_cancel_left _ hg]
  exact h.grow.resolve_left hc1

/-- The loop's invariant, for the operands `x` and `y`. -/
structure EuclidInv (x y : Nat) (e : EuclidRegs) : Prop where
  le : e.r1 ≤ e.r0
  gcd : Nat.gcd e.r0 e.r1 = Nat.gcd x y
  bezout0 : (x : Int) * e.s0 + (y : Int) * e.t0 = e.r0
  bezout1 : (x : Int) * e.s1 + (y : Int) * e.t1 = e.r1
  coeffS : CoeffPair y e.r0 e.r1 e.s0 e.s1
  coeffT : CoeffPair x e.r0 e.r1 e.t0 e.t1

theorem euclidInv_start {x y : Nat} (hle : y ≤ x) : EuclidInv x y (euclidStart x y) where
  le := hle
  gcd := rfl
  bezout0 := by simp [euclidStart]
  bezout1 := by simp [euclidStart]
  coeffS := ⟨by simp [euclidStart], .inl rfl, by simp [euclidStart]⟩
  coeffT := ⟨by simp [euclidStart], .inr (by simp [euclidStart]), by simp [euclidStart]⟩

theorem EuclidInv.step {x y : Nat} {e : EuclidRegs} (h : EuclidInv x y e) (h1 : e.r1 ≠ 0) :
    EuclidInv x y (euclidStep e) where
  le := by
    rw [euclidStep_r0, euclidStep_r1]
    exact (Nat.mod_lt _ (Nat.pos_of_ne_zero h1)).le
  gcd := (euclidStep_gcd e).trans h.gcd
  bezout0 := (euclidStep_bezout h.bezout0 h.bezout1).1
  bezout1 := (euclidStep_bezout h.bezout0 h.bezout1).2
  coeffS := by
    rw [euclidStep_r0, euclidStep_r1]
    exact h.coeffS.step h1 h.le
  coeffT := by
    rw [euclidStep_r0, euclidStep_r1]
    exact h.coeffT.step h1 h.le

theorem EuclidInv.loop {x y : Nat} (fuel : Nat) {e : EuclidRegs} (h : EuclidInv x y e) :
    EuclidInv x y (euclidLoop fuel e) := by
  induction fuel generalizing e with
  | zero => exact h
  | succ fuel ih =>
    by_cases h1 : e.r1 = 0
    · rwa [euclidLoop_done h1]
    · rw [euclidLoop_step h1]
      exact ih (h.step h1)

/-! ## XGCD's triple (40_gcd_unit.md R99 to R102) -/

/-- What the rules say of the triple (RES, S, T) for operands `A` and `B`: R102's gcd and identity, and
R101's bounds. -/
structure Bezout.Correct (A B : Nat) (b : Bezout) : Prop where
  gcd : b.g = Nat.gcd A B
  identity : (A : Int) * b.S + (B : Int) * b.T = b.g
  boundS : b.S.natAbs ≤ B / b.g
  boundT : b.T.natAbs ≤ A / b.g

/-- The triple of the exchanged operands (40_gcd_unit.md R100). -/
def Bezout.swap (b : Bezout) : Bezout := { g := b.g, S := b.T, T := b.S }

theorem Bezout.Correct.swap {A B : Nat} {b : Bezout} (h : b.Correct A B) : b.swap.Correct B A where
  gcd := h.gcd.trans (Nat.gcd_comm A B)
  identity := (add_comm _ _).trans h.identity
  boundS := h.boundT
  boundT := h.boundS

/-- Where the invariant holds and the loop has ended, the remainder and its coefficients are correct. -/
theorem EuclidInv.correct {x y : Nat} {e : EuclidRegs} (h : EuclidInv x y e) (hx : x ≠ 0)
    (hy : y ≠ 0) (hend : e.r1 = 0) : Bezout.Correct x y { g := e.r0, S := e.s0, T := e.t0 } where
  gcd := by rw [← h.gcd, hend, Nat.gcd_zero_right]
  identity := h.bezout0
  boundS := (hend ▸ h.coeffS).natAbs_le_div hy
  boundT := (hend ▸ h.coeffT).natAbs_le_div hx

theorem xgcd_of_le {A B : Nat} (h : B ≤ A) :
    xgcd A B =
      { g := (euclidLoop Config.euclidIterations (euclidStart A B)).r0
        S := (euclidLoop Config.euclidIterations (euclidStart A B)).s0
        T := (euclidLoop Config.euclidIterations (euclidStart A B)).t0 } :=
  if_neg h.not_gt

theorem xgcd_of_lt {A B : Nat} (h : A < B) : xgcd A B = (xgcd B A).swap :=
  (if_pos h).trans (congrArg Bezout.swap (xgcd_of_le h.le).symm)

/-- Exchanging different operands exchanges the coefficients, whichever operand is the larger. -/
theorem xgcd_exchange {A B : Nat} (h : A ≠ B) : xgcd B A = (xgcd A B).swap := by
  rcases Nat.lt_or_gt_of_ne h with hlt | hgt
  · rw [xgcd_of_lt hlt]
    rfl
  · exact xgcd_of_lt hgt

theorem xgcd_self {A : Nat} (h : A ≠ 0) : xgcd A A = { g := A, S := 0, T := 1 } := by
  rw [xgcd_of_le le_rfl, euclidLoop_start_self h]

theorem xgcd_correct_of_le {A B : Nat} (hB : B ≠ 0) (hle : B ≤ A) (hA : A < 2 ^ 32) :
    (xgcd A B).Correct A B := by
  rw [xgcd_of_le hle]
  exact ((euclidInv_start hle).loop Config.euclidIterations).correct
    (Nat.ne_of_gt ((Nat.pos_of_ne_zero hB).trans_le hle)) hB (euclidLoop_start_r1_eq_zero hB hle hA)

theorem xgcd_correct {a b : Word} (ha : a.toNat ≠ 0) (hb : b.toNat ≠ 0) :
    (xgcd a.toNat b.toNat).Correct a.toNat b.toNat := by
  rcases Nat.lt_or_ge a.toNat b.toNat with hlt | hle
  · rw [xgcd_of_lt hlt]
    exact (xgcd_correct_of_le ha hlt.le b.isLt).swap
  · exact xgcd_correct_of_le hb hle a.isLt

/-! ## S and T as s64 (10_state.md R34, 40_gcd_unit.md R101) -/

/-- A 64-bit value is its high word above its low word. -/
theorem high_append_low (v : DWord) : v.extractLsb' 32 32 ++ v.extractLsb' 0 32 = v :=
  calc v.extractLsb' 32 32 ++ v.extractLsb' 0 32 = v.extractLsb' 0 (32 + 32) :=
        BitVec.extractLsb'_append_extractLsb'_eq_extractLsb' rfl
    _ = v := BitVec.extractLsb'_eq_self

/-- A value of s64 reads back from its two words. -/
theorem toInt_high_append_low {z : Int} (h : z.natAbs < 2 ^ 32) :
    ((BitVec.ofInt 64 z).extractLsb' 32 32 ++ (BitVec.ofInt 64 z).extractLsb' 0 32).toInt = z := by
  rw [high_append_low]
  exact BitVec.toInt_ofInt_eq_self (by decide) (by omega) (by omega)

/-- The high word of a value below 2^32 in size is a sign word. -/
theorem highWord_is_sign {z : Int} (h : z.natAbs < 2 ^ 32) :
    (BitVec.ofInt 64 z).extractLsb' 32 32 = 0#32 ∨
      (BitVec.ofInt 64 z).extractLsb' 32 32 = 0xFFFFFFFF#32 := by
  simp only [BitVec.toNat_eq, BitVec.extractLsb'_toNat, BitVec.toNat_ofInt,
    Nat.shiftRight_eq_div_pow, BitVec.toNat_ofNat]
  rcases lt_or_ge z 0 with hneg | hpos
  · right
    omega
  · left
    omega

theorem State.bezoutS_setBezout {s : State} {S T : Int} (h : S.natAbs < 2 ^ 32) :
    (s.setBezout S T).bezoutS = S := toInt_high_append_low h

theorem State.bezoutT_setBezout {s : State} {S T : Int} (h : T.natAbs < 2 ^ 32) :
    (s.setBezout S T).bezoutT = T := toInt_high_append_low h

/-- The pair of equal operands, in the four words of S and T. -/
theorem State.setBezout_zero_one (s : State) :
    s.setBezout 0 1 = { s with sLo := 0, sHi := 0, tLo := 1, tHi := 0 } := by rfl

/-! ## XGCD (40_gcd_unit.md R99 to R102) -/

/-- XGCD's result for the triple `b`. -/
def State.finishBezout (s : State) (b : Bezout) : State :=
  ((s.setRes b.g).setBezout b.S b.T).finish true

theorem exec_xgcd_of_zero {s : State} (h : s.la = 0 ∨ s.lb = 0) :
    exec .xgcd s = .next (((s.setRes 0).setBezout 0 0).finish false) :=
  if_pos (State.zero_operand_iff.2 h)

theorem exec_xgcd_of_nonzero {s : State} (ha : s.la ≠ 0) (hb : s.lb ≠ 0) :
    exec .xgcd s = .next (s.finishBezout (xgcd s.opndA s.opndB)) :=
  if_neg (mt State.zero_operand_iff.1 (not_or.2 ⟨ha, hb⟩))

/-- The exchanged latches give the exchanged triple (40_gcd_unit.md R100). -/
theorem exec_xgcd_exchanged {s : State} (hne : s.la ≠ s.lb) (ha : s.la ≠ 0) (hb : s.lb ≠ 0) :
    exec .xgcd { s with la := s.lb, lb := s.la } =
      .next (State.finishBezout { s with la := s.lb, lb := s.la } (xgcd s.opndA s.opndB).swap) := by
  rw [← xgcd_exchange (mt BitVec.eq_of_toNat_eq hne)]
  exact exec_xgcd_of_nonzero hb ha

section
variable {s : State} {b : Bezout} {x y : Word}

theorem Bezout.Correct.boundS_lt (h : b.Correct x.toNat y.toNat) : b.S.natAbs < 2 ^ 32 :=
  (h.boundS.trans (Nat.div_le_self _ _)).trans_lt y.isLt

theorem Bezout.Correct.boundT_lt (h : b.Correct x.toNat y.toNat) : b.T.natAbs < 2 ^ 32 :=
  (h.boundT.trans (Nat.div_le_self _ _)).trans_lt x.isLt

theorem Bezout.Correct.finishBezout_bezoutS (h : b.Correct x.toNat y.toNat) :
    (s.finishBezout b).bezoutS = b.S :=
  State.bezoutS_setBezout (s := s.setRes b.g) (T := b.T) h.boundS_lt

theorem Bezout.Correct.finishBezout_bezoutT (h : b.Correct x.toNat y.toNat) :
    (s.finishBezout b).bezoutT = b.T :=
  State.bezoutT_setBezout (s := s.setRes b.g) (S := b.S) h.boundT_lt

theorem Bezout.Correct.finishBezout_res (h : b.Correct x.toNat y.toNat) (hx : x.toNat ≠ 0) :
    (s.finishBezout b).res.toNat = b.g := by
  have hle : b.g ≤ x.toNat := h.gcd ▸ Nat.gcd_le_left _ (Nat.pos_of_ne_zero hx)
  exact State.setRes_toNat (s := s) hle

end

/-- Settles O38: the zero branch of XGCD writes RES, S, T and STATUS alone. -/
theorem xgcdZeroOperand : Obligations.XgcdZeroOperand := fun _ h => exec_xgcd_of_zero h

/-- Settles O39: the loop keeps the identity, and the registers hold the loop's last values. -/
theorem xgcdBezoutIdentity : Obligations.XgcdBezoutIdentity := by
  refine ⟨fun s t hexec hok => ?identity, fun s ha hb => ?completes⟩
  case identity =>
    by_cases hzero : s.la = 0 ∨ s.lb = 0
    · cases (exec_xgcd_of_zero hzero).symm.trans hexec
      cases hok
    · obtain ⟨ha, hb⟩ := not_or.1 hzero
      cases (exec_xgcd_of_nonzero ha hb).symm.trans hexec
      have hA := State.opndA_ne_zero ha
      have hxgcd := xgcd_correct hA (State.opndB_ne_zero hb)
      rw [hxgcd.finishBezout_bezoutS, hxgcd.finishBezout_bezoutT, hxgcd.finishBezout_res hA]
      exact hxgcd.identity
  case completes =>
    have hA := State.opndA_ne_zero ha
    have hxgcd := xgcd_correct hA (State.opndB_ne_zero hb)
    exact ⟨_, exec_xgcd_of_nonzero ha hb, rfl, (hxgcd.finishBezout_res hA).trans hxgcd.gcd,
      fun k => rfl⟩

/-- Settles O40: the bounds are the loop's, and a bound below 2^32 leaves the high word to the sign. -/
theorem xgcdCoefficientRange : Obligations.XgcdCoefficientRange := by
  intro s ha hb
  have hA := State.opndA_ne_zero ha
  have hxgcd := xgcd_correct hA (State.opndB_ne_zero hb)
  refine ⟨_, exec_xgcd_of_nonzero ha hb, ?_, ?_, highWord_is_sign hxgcd.boundS_lt,
    highWord_is_sign hxgcd.boundT_lt⟩
  · rw [hxgcd.finishBezout_bezoutS, hxgcd.finishBezout_res hA]
    exact hxgcd.boundS
  · rw [hxgcd.finishBezout_bezoutT, hxgcd.finishBezout_res hA]
    exact hxgcd.boundT

/-- Settles O41: one of two different operands is the larger in either order; equal operands take one
iteration of the loop. -/
theorem xgcdSwapRule : Obligations.XgcdSwapRule := by
  refine ⟨fun s hne ha hb => ?different, fun s heq ha => ?equal⟩
  case different =>
    exact ⟨_, _, exec_xgcd_of_nonzero ha hb, exec_xgcd_exchanged hne ha hb, rfl, rfl, rfl, rfl, rfl⟩
  case equal =>
    have hself : xgcd s.opndA s.opndB = { g := s.opndA, S := 0, T := 1 } := by
      rw [State.opndB, ← heq, xgcd_self (State.opndA_ne_zero ha)]
    rw [exec_xgcd_of_nonzero ha (heq ▸ ha), hself, State.finishBezout, State.setRes_latch,
      State.setBezout_zero_one]
    rfl

/-! ## MODINV (40_gcd_unit.md R103, R104) -/

/-- The first coefficient reduced into `[0, N)`: the value MODINV leaves in RES. -/
def Bezout.residueS (b : Bezout) (N : Nat) : Nat := (b.S % (N : Int)).toNat

theorem Bezout.natCast_residueS {N : Nat} (hN : N ≠ 0) (b : Bezout) :
    (b.residueS N : Int) = b.S % N :=
  Int.toNat_of_nonneg (Int.emod_nonneg _ (Nat.cast_ne_zero.2 hN))

theorem Bezout.residueS_lt {N : Nat} (hN : N ≠ 0) (b : Bezout) : b.residueS N < N := by
  have hlt : b.S % N < N := Int.emod_lt_of_pos _ (by omega)
  rw [← b.natCast_residueS hN] at hlt
  exact_mod_cast hlt

theorem exec_modinv_of_inverse {s : State} (hN : 2 ≤ s.opndN) (hmod : s.opndA % s.opndN ≠ 0)
    (hgcd : Nat.gcd s.opndA s.opndN = 1) :
    exec .modinv s =
      .next ((s.setRes ((xgcd s.opndA s.opndN).residueS s.opndN)).finish true) :=
  if_neg (by omega)

/-- Two inverses agree modulo N (40_gcd_unit.md R104). -/
theorem inverse_modEq {A N S C : Int} (hS : A * S ≡ 1 [ZMOD N]) (hC : A * C ≡ 1 [ZMOD N]) :
    S ≡ C [ZMOD N] :=
  calc S = S * 1 := (mul_one S).symm
    _ ≡ S * (A * C) [ZMOD N] := hC.symm.mul_left S
    _ = A * S * C := by ring
    _ ≡ 1 * C [ZMOD N] := hS.mul_right C
    _ = C := one_mul C

/-- For `N ≥ 2`, being 1 modulo N is having the remainder 1. -/
theorem modEq_one_iff {N : Nat} (hN : 2 ≤ N) {z : Int} : z ≡ 1 [ZMOD N] ↔ z % N = 1 := by
  rw [Int.ModEq, Int.emod_eq_of_lt one_pos.le (by omega)]

section
variable {A N : Nat} {b : Bezout}

/-- Where the gcd is 1, the Bézout identity makes the first coefficient an inverse. -/
theorem Bezout.Correct.inverse (h : b.Correct A N) (hgcd : Nat.gcd A N = 1) :
    (A : Int) * b.S ≡ 1 [ZMOD N] := by
  have hidentity : (A : Int) * b.S + N * b.T = 1 := by
    rw [h.identity, h.gcd, hgcd, Nat.cast_one]
  exact Int.modEq_iff_dvd.2 ⟨b.T, by rw [← hidentity, add_sub_cancel_left]⟩

theorem Bezout.Correct.mul_residueS (h : b.Correct A N) (hgcd : Nat.gcd A N = 1) (hN : 2 ≤ N) :
    A * b.residueS N % N = 1 := by
  have hres : (b.residueS N : Int) ≡ b.S [ZMOD N] := by
    rw [b.natCast_residueS (by omega)]
    exact Int.mod_modEq _ _
  exact_mod_cast (modEq_one_iff hN).1 ((hres.mul_left _).trans (h.inverse hgcd))

/-- Whatever inverse it is taken from, the residue is the same (40_gcd_unit.md R104). -/
theorem Bezout.Correct.emod_eq_residueS (h : b.Correct A N) (hgcd : Nat.gcd A N = 1) (hN : 2 ≤ N)
    {S : Int} (hS : (A : Int) * S % N = 1) : S % N = b.residueS N := by
  rw [b.natCast_residueS (by omega)]
  exact inverse_modEq ((modEq_one_iff hN).2 hS) (h.inverse hgcd)

theorem Bezout.Correct.eq_residueS (h : b.Correct A N) (hgcd : Nat.gcd A N = 1) (hN : 2 ≤ N)
    {C : Nat} (hlt : C < N) (hC : A * C % N = 1) : C = b.residueS N := by
  have hmod : (C : Int) % N = b.residueS N := h.emod_eq_residueS hgcd hN (by exact_mod_cast hC)
  rwa [← Int.natCast_mod, Nat.mod_eq_of_lt hlt, Nat.cast_inj] at hmod

end

/-- Settles O43: the failure test of MODINV is the rule's. -/
theorem modinvFailure : Obligations.ModinvFailure := fun _ h => if_pos h

/-- Settles O44: XGCD's first coefficient is an inverse, inverses agree modulo N, and RES holds the one
below N. -/
theorem modinvIsTheInverse : Obligations.ModinvIsTheInverse := by
  intro s hN hmod hgcd
  have hA : s.la.toNat ≠ 0 := fun hz => hmod (by rw [hz, Nat.zero_mod])
  have hxgcd := xgcd_correct (b := s.ln) hA (by omega)
  have hlt := (xgcd s.la.toNat s.ln.toNat).residueS_lt (N := s.ln.toNat) (by omega)
  have hmul := hxgcd.mul_residueS hgcd hN
  refine ⟨_, exec_modinv_of_inverse hN hmod hgcd, rfl, ?_⟩
  rw [State.finish_res, State.setRes_toNat hlt.le]
  refine ⟨Nat.pos_of_ne_zero fun hz => ?_, Nat.le_sub_one_of_lt hlt, hmul,
    fun C => hxgcd.eq_residueS hgcd hN, fun S => hxgcd.emod_eq_residueS hgcd hN, fun k => rfl⟩
  rw [hz, Nat.mul_zero, Nat.zero_mod] at hmul
  exact zero_ne_one hmul

end Sys2Proof.Machine
end

section
/-! PROOFS. The statements of the exponentiation engine (41_modexp_engine.md): the 64-bit product, the
square-and-multiply loop behind MODPOW, and the corner cases of its operands. -/

namespace Sys2Proof.Machine

/-! ## The 64-bit product (41_modexp_engine.md R110) -/

section
variable {n x y : Nat}

theorem mul_lt_intermediate (hn : n < 2 ^ 32) (hx : x < n) (hy : y < n) : x * y < 2 ^ 64 :=
  calc x * y < n * n := Nat.mul_lt_mul'' hx hy
    _ ≤ 2 ^ 32 * 2 ^ 32 := Nat.mul_le_mul hn.le hn.le

/-- Nothing wraps in a product of two values below the modulus. -/
theorem mulMod_eq (hn : n < 2 ^ 32) (hx : x < n) (hy : y < n) : mulMod n x y = x * y % n := by
  rw [mulMod, ← BitVec.ofNat_mul, BitVec.toNat_ofNat,
    Nat.mod_eq_of_lt (mul_lt_intermediate hn hx hy)]

theorem mulMod_lt (hx : x < n) : mulMod n x y < n := Nat.mod_lt _ (Nat.zero_lt_of_lt hx)

end

/-- Settles O49: each factor is below 2^32, so the intermediate is the product itself. -/
theorem productsFitIntermediate : Obligations.ProductsFitIntermediate := fun _ _ _ hn hx hy =>
  ⟨mul_lt_intermediate hn hx hy, mulMod_eq hn hx hy, mulMod_lt hx⟩

/-! ## The square-and-multiply loop (41_modexp_engine.md R111, R115) -/

@[simp] theorem powLoop_zero_exponent (n fuel r base : Nat) : powLoop n fuel r base 0 = r := by
  cases fuel with
  | zero => rfl
  | succ fuel => exact if_pos rfl

theorem powLoop_succ {k : Nat} (hk : k ≠ 0) (n fuel r base : Nat) :
    powLoop n (fuel + 1) r base k =
      powLoop n fuel (if k % 2 = 1 then mulMod n r base else r) (mulMod n base base) (k / 2) :=
  if_neg hk

/-- An iteration multiplies the accumulator by the base to the power of the exponent's low bit. -/
theorem accumulate_eq {n r base : Nat} (hn : n < 2 ^ 32) (hr : r < n) (hbase : base < n) (k : Nat) :
    (if k % 2 = 1 then mulMod n r base else r) = r * base ^ (k % 2) % n := by
  split_ifs with hodd
  · rw [hodd, pow_one, mulMod_eq hn hr hbase]
  · rw [Nat.mod_two_ne_one.1 hodd, pow_zero, mul_one, Nat.mod_eq_of_lt hr]

/-- The low bit's power and the square's power to the remaining bits make up the whole power. -/
theorem lowBit_mul_square_pow (base k : Nat) :
    base ^ (k % 2) * (base * base) ^ (k / 2) = base ^ k := by
  rw [← pow_two, ← pow_mul, ← pow_add, Nat.mod_add_div]

/-- `r * base ^ k` modulo n is the loop's invariant, and the exponent's bits bound its iterations. -/
theorem powLoop_eq {n : Nat} (hn : n < 2 ^ 32) (fuel : Nat) {r base k : Nat} (hr : r < n)
    (hbase : base < n) (hk : k < 2 ^ fuel) : powLoop n fuel r base k = r * base ^ k % n := by
  induction fuel generalizing r base k with
  | zero =>
    obtain rfl : k = 0 := Nat.lt_one_iff.1 hk
    rw [powLoop_zero_exponent, pow_zero, mul_one, Nat.mod_eq_of_lt hr]
  | succ fuel ih =>
    by_cases hzero : k = 0
    · rw [hzero, powLoop_zero_exponent, pow_zero, mul_one, Nat.mod_eq_of_lt hr]
    · have hpos : 0 < n := Nat.zero_lt_of_lt hr
      have hhalf : k / 2 < 2 ^ fuel := Nat.div_lt_of_lt_mul (by rwa [← pow_succ'])
      rw [powLoop_succ hzero, accumulate_eq hn hr hbase, mulMod_eq hn hbase hbase,
        ih (Nat.mod_lt _ hpos) (Nat.mod_lt _ hpos) hhalf]
      calc r * base ^ (k % 2) % n * (base * base % n) ^ (k / 2)
        _ ≡ r * base ^ (k % 2) * (base * base) ^ (k / 2) [MOD n] :=
            (Nat.mod_modEq _ _).mul ((Nat.mod_modEq _ _).pow _)
        _ = r * base ^ k := by rw [mul_assoc, lowBit_mul_square_pow]

/-- The 32 iterations suffice for every u32 exponent. -/
theorem modpow_eq (a : Nat) (e : Word) {n : Nat} (hpos : 0 < n) (hn : n < 2 ^ 32) :
    modpow a e.toNat n = a ^ e.toNat % n := by
  rw [modpow, powLoop_eq hn Config.powIterations (Nat.mod_lt _ hpos) (Nat.mod_lt _ hpos) e.isLt]
  calc 1 % n * (a % n) ^ e.toNat
    _ ≡ 1 * a ^ e.toNat [MOD n] := (Nat.mod_modEq _ _).mul ((Nat.mod_modEq _ _).pow _)
    _ = a ^ e.toNat := one_mul _

/-! ## MODPOW (41_modexp_engine.md R111 to R115) -/

theorem State.opndN_eq_zero {s : State} : s.opndN = 0 ↔ s.ln = 0 := BitVec.toNat_inj (y := 0#32)

theorem State.opndN_ne_zero {s : State} (h : s.ln ≠ 0) : s.opndN ≠ 0 := mt State.opndN_eq_zero.1 h

theorem exec_modpow_of_zero {s : State} (h : s.ln = 0) :
    exec .modpow s = .next ((s.setRes 0).finish false) :=
  if_pos (State.opndN_eq_zero.2 h)

theorem exec_modpow_of_small {s : State} (hn : s.ln ≠ 0) (ha : s.opndA < 2) :
    exec .modpow s = .next ((s.setRes s.opndA).finish true) :=
  (if_neg (State.opndN_ne_zero hn)).trans (if_pos ha)

theorem exec_modpow_of_loop {s : State} (hn : s.ln ≠ 0) (ha : 2 ≤ s.opndA) :
    exec .modpow s = .next ((s.setRes (s.opndA ^ s.opndB % s.opndN)).finish true) := by
  rw [← modpow_eq _ _ (Nat.pos_of_ne_zero (State.opndN_ne_zero hn)) s.ln.isLt]
  exact (if_neg (State.opndN_ne_zero hn)).trans (if_neg ha.not_gt)

/-- Settles O45: the zero modulus fails before the operand is looked at. -/
theorem modpowZeroModulus : Obligations.ModpowZeroModulus := fun _ h => exec_modpow_of_zero h

/-- Settles O46: an operand of 0 or 1 goes to RES as it was latched, the exponent unread. -/
theorem modpowRawOperandShortcut : Obligations.ModpowRawOperandShortcut := by
  intro s hn ha
  have hsmall : s.opndA < 2 := by rcases ha with h | h <;> simp [State.opndA, h]
  rw [exec_modpow_of_small hn hsmall, State.setRes_latch]
  rfl

/-- Settles O47: every power is 0 modulo 1. -/
theorem modpowModulusOne : Obligations.ModpowModulusOne := by
  intro s hn ha
  have hone : s.opndN = 1 := congrArg BitVec.toNat hn
  have hne : s.ln ≠ 0 := by simp [hn]
  rw [exec_modpow_of_loop hne ha, hone, Nat.mod_one]
  rfl

/-- Settles O48: RES holds the loop's power, which fits because it is below the modulus. -/
theorem modpowComputesPower : Obligations.ModpowComputesPower := by
  intro s hn ha
  have hlt : s.opndA ^ s.opndB % s.opndN < s.opndN :=
    Nat.mod_lt _ (Nat.pos_of_ne_zero (State.opndN_ne_zero hn))
  refine ⟨_, exec_modpow_of_loop hn ha, rfl, ?_⟩
  rw [State.finish_res, State.setRes_toNat hlt.le]
  exact ⟨hlt, rfl, fun k => rfl⟩

end Sys2Proof.Machine
end

section
/-! PROOFS. The statements of the meet-in-the-middle table (42_mitm_table.md): what TCLR, TINS and
TLKP answer, that TINS's walk ends within TCOUNT + 1 probes, that TCOUNT counts the filled slots, and
that the first exponent inserted for a residue is the one TLKP returns. -/

namespace Sys2Proof.Machine

/-! ## The first empty slot of a probe sequence (42_mitm_table.md R124, R125) -/

/-- Position `i` of the probe sequence of residue `r` is empty, and every position before it is
filled. -/
structure FirstEmpty (s : State) (r i : Nat) : Prop where
  lt_cap : i < s.cap
  filled_before : ∀ j < i, (s.slot (s.probe r j)).res ≠ 0
  empty : (s.slot (s.probe r i)).res = 0

theorem TableInv.cap_pos {s : State} (h : TableInv s) : 0 < s.cap :=
  Nat.lt_of_lt_of_le (by decide) h.1

theorem State.probe_lt {s : State} (h : 0 < s.cap) (r i : Nat) : s.probe r i < s.cap :=
  Nat.mod_lt _ h

/-- The probe sequence depends on the capacity alone. -/
theorem State.probe_congr {s t : State} (h : t.capr = s.capr) (r i : Nat) :
    t.probe r i = s.probe r i := by
  simp only [State.probe, State.homeSlot, State.cap, h]

/-- TINS's walk answers the first empty position, under every bound that lets it get there. -/
theorem FirstEmpty.findEmpty {s : State} {r i : Nat} (h : FirstEmpty s r i) {fuel : Nat}
    (hfuel : i < fuel) : s.findEmpty fuel (s.homeSlot r) = some (s.probe r i) :=
  State.findEmpty_of_first (State.homeSlot_lt (Nat.zero_lt_of_lt h.lt_cap) r) hfuel
    h.filled_before h.empty

/-- The slot that TINS's walk answers is the first empty position. -/
theorem State.firstEmpty_of_findEmpty {s : State} (hcap : 0 < s.cap) {r k : Nat}
    (h : s.findEmpty s.cap (s.homeSlot r) = some k) : ∃ i, FirstEmpty s r i ∧ k = s.probe r i := by
  obtain ⟨i, hi, rfl, hempty, hbefore⟩ := State.findEmpty_eq_some (State.homeSlot_lt hcap r) h
  exact ⟨i, ⟨hi, hbefore, hempty⟩, rfl⟩

/-- The positions before the first empty one are distinct filled slots, so TCOUNT counts each. -/
theorem FirstEmpty.le_tcount {s : State} {r i : Nat} (h : FirstEmpty s r i) (hs : TableInv s)
    (hvalid : s.tvalid = true) : i ≤ s.tcount.toNat := by
  obtain ⟨-, -, -, hcount, -⟩ := hs
  have hdistinct : ((List.range i).map (s.probe r)).Nodup :=
    List.Nodup.map_on (fun a ha b hb => walk_injective
      ((List.mem_range.1 ha).trans h.lt_cap) ((List.mem_range.1 hb).trans h.lt_cap))
      List.nodup_range
  have hlisted : (List.range i).map (s.probe r) ⊆ s.tab.map Prod.fst := by
    intro k hk
    obtain ⟨j, hj, rfl⟩ := List.mem_map.1 hk
    exact State.mem_keys_of_filled hvalid (h.filled_before j (List.mem_range.1 hj))
  have hle := (hdistinct.subperm hlisted).length_le
  rwa [List.length_map, List.length_map, List.length_range, ← hcount hvalid] at hle

/-- Where the table is not full, TCOUNT is below CAP. -/
theorem TableInv.tcount_lt_cap {s : State} (h : TableInv s) (hvalid : s.tvalid = true)
    (hroom : s.tcount ≠ s.capr) : s.tcount.toNat < s.cap :=
  lt_of_le_of_ne (h.tcount_le_cap hvalid) fun heq => hroom (BitVec.eq_of_toNat_eq heq)

/-- Where the table is not full, every probe sequence has an empty slot (42_mitm_table.md R124). -/
theorem TableInv.exists_firstEmpty {s : State} (h : TableInv s) (hvalid : s.tvalid = true)
    (hroom : s.tcount ≠ s.capr) (r : Nat) : ∃ i, FirstEmpty s r i := by
  obtain ⟨k, hwalk⟩ := h.exists_findEmpty hvalid hroom r
  obtain ⟨i, hi, -⟩ := State.firstEmpty_of_findEmpty h.cap_pos hwalk
  exact ⟨i, hi⟩

/-! ## What TINS answers (42_mitm_table.md R122, R125, R133, R134) -/

theorem exec_tins_of_uninit {s : State} (h : s.tvalid = false) :
    exec .tins s = .next (s.raiseErr .tableUninit) := if_pos h

theorem exec_tins_of_zero {s : State} (hvalid : s.tvalid = true) (h : s.la = 0) :
    exec .tins s = .next (s.raiseErr .residueZero) :=
  (if_neg (by simp [hvalid])).trans (if_pos h)

theorem exec_tins_of_full {s : State} (hvalid : s.tvalid = true) (hresidue : s.la ≠ 0)
    (h : s.tcount = s.capr) : exec .tins s = .next (s.raiseErr .tableFull) :=
  (if_neg (by simp [hvalid])).trans ((if_neg hresidue).trans (if_pos h))

/-- TINS's success: the entry stored at slot `k`, TCOUNT one more, and `k` in RES
(42_mitm_table.md R125). -/
def State.insertEntry (k : Nat) (s : State) : State :=
  (((s.setSlot k { exp := s.lb, res := s.la }).countInsert).setRes k).finish true

/-- TINS inserts at the first empty position of the residue's probe sequence. -/
theorem exec_tins_of_firstEmpty {s : State} (hvalid : s.tvalid = true) (hresidue : s.la ≠ 0)
    (hroom : s.tcount ≠ s.capr) {i : Nat} (h : FirstEmpty s s.opndA i) :
    exec .tins s = .next (s.insertEntry (s.probe s.opndA i)) := by
  have hwalk : s.findEmpty s.cap (s.homeSlot s.opndA) = some (s.probe s.opndA i) :=
    h.findEmpty h.lt_cap
  simp only [exec, execTins, hvalid, hresidue, hroom, hwalk, State.insertEntry, if_false,
    Bool.true_eq_false]

/-- A TINS that ends with OK = 1 inserted at the first empty position. -/
theorem exec_tins_ok {s t : State} (hcap : 0 < s.cap) (h : exec .tins s = .next t)
    (hok : t.ok = true) :
    s.tvalid = true ∧ s.la ≠ 0 ∧ s.tcount ≠ s.capr ∧
    ∃ i, FirstEmpty s s.opndA i ∧ t = s.insertEntry (s.probe s.opndA i) := by
  cases execTins_completion h with
  | result hi v okv => simp at hi
  | inserted hvalid hresidue hroom hwalk =>
    obtain ⟨i, hi, rfl⟩ := State.firstEmpty_of_findEmpty hcap hwalk
    exact ⟨hvalid, hresidue, hroom, i, hi, rfl⟩
  | error hi c => simp at hok

@[simp] theorem State.insertEntry_tvalid (s : State) (k : Nat) :
    (s.insertEntry k).tvalid = s.tvalid := by rfl

/-- RES is the slot index: every slot index fits in u32 (42_mitm_table.md R125). -/
theorem State.res_insertEntry {s : State} {k : Nat} (h : k < s.cap) :
    (s.insertEntry k).res.toNat = k :=
  State.setRes_toNat (s := (s.setSlot k { exp := s.lb, res := s.la }).countInsert) h.le

theorem State.tcount_insertEntry {s : State} (hs : TableInv s) (hvalid : s.tvalid = true)
    (hroom : s.tcount ≠ s.capr) (k : Nat) :
    (s.insertEntry k).tcount.toNat = s.tcount.toNat + 1 :=
  hs.tcount_succ hvalid hroom

theorem State.slot_insertEntry_same {s : State} (hs : TableInv s) (hvalid : s.tvalid = true)
    (k : Nat) : (s.insertEntry k).slot k = { exp := s.lb, res := s.la } := by
  obtain ⟨-, hwf, -⟩ := hs
  exact (State.slot_setSlot hwf hvalid k k _).trans (if_pos rfl)

theorem State.slot_insertEntry_other {s : State} (hs : TableInv s) (hvalid : s.tvalid = true)
    {k j : Nat} (h : j ≠ k) : (s.insertEntry k).slot j = s.slot j := by
  obtain ⟨-, hwf, -⟩ := hs
  exact (State.slot_setSlot hwf hvalid k j _).trans (if_neg h)

/-! ## What a lookup answers (42_mitm_table.md R129 to R131) -/

/-- A residue is absent where every match comes after an empty slot. -/
theorem State.lookup_eq_none_of_empty_before {s : State} {r : Word} (hcap : 0 < s.cap)
    (h : ∀ i < s.cap, (s.slot (s.probe r.toNat i)).res = r →
      ∃ j < i, (s.slot (s.probe r.toNat j)).res = 0) : s.lookup r = none := by
  cases hfound : s.lookup r with
  | none => rfl
  | some x =>
    obtain ⟨i, hi, hhit, -, -, hbefore⟩ := State.lookup_eq_some hcap hfound
    obtain ⟨j, hj, hempty⟩ := h i hi hhit
    exact absurd hempty (hbefore j hj).1

/-- No filled run from the home slot holds a residue that is absent: its first match would be
found. -/
theorem State.ne_of_lookup_eq_none {s : State} {r : Word} (hr : r ≠ 0) (h : s.lookup r = none)
    {n : Nat} (hn : n ≤ s.cap) (hfilled : ∀ j < n, (s.slot (s.probe r.toNat j)).res ≠ 0) :
    ∀ j < n, (s.slot (s.probe r.toNat j)).res ≠ r := by
  intro j
  induction j using Nat.strong_induction_on with
  | _ j ih =>
    intro hj hhit
    have hfound := State.lookup_of_first (by omega) hr
      (fun k hk => ⟨hfilled k (by omega), ih k hk (by omega)⟩) hhit
    rw [h] at hfound
    cases hfound

/-- A residue is absent where its home slot is empty, whatever the capacity. -/
theorem State.lookup_eq_none_of_home_empty {s : State} {r : Word}
    (h : (s.slot (s.homeSlot r.toNat)).res = 0) : s.lookup r = none := by
  unfold State.lookup
  split
  · rfl
  · cases s.cap with
    | zero => rfl
    | succ fuel => exact if_pos h

/-- A change that keeps CAP and every filled slot keeps every residue that is present. -/
theorem State.lookup_of_filled_kept {s t : State} (hcap : 0 < s.cap) (hcapr : t.capr = s.capr)
    (hkept : ∀ k, (s.slot k).res ≠ 0 → t.slot k = s.slot k) {r x : Word}
    (h : s.lookup r = some x) : t.lookup r = some x := by
  obtain ⟨i, hi, hhit, rfl, hr, hbefore⟩ := State.lookup_eq_some hcap h
  have hbefore' : ∀ j < i, t.slot (t.probe r.toNat j) = s.slot (s.probe r.toNat j) := fun j hj => by
    rw [State.probe_congr hcapr, hkept _ (hbefore j hj).1]
  have hat : t.slot (t.probe r.toNat i) = s.slot (s.probe r.toNat i) := by
    rw [State.probe_congr hcapr, hkept _ (by rwa [hhit])]
  rw [← hat]
  refine State.lookup_of_first (by simpa only [State.cap, hcapr] using hi) hr (fun j hj => ?_)
    (by rw [hat, hhit])
  rw [hbefore' j hj]
  exact hbefore j hj

theorem exec_tlkp_of_uninit {s : State} (h : s.tvalid = false) :
    exec .tlkp s = .next (s.raiseErr .tableUninit) := if_pos h

theorem exec_tlkp_of_absent {s : State} (hvalid : s.tvalid = true) (h : s.lookup s.la = none) :
    exec .tlkp s = .next ((s.setRes 0).finish false) := by
  simp [exec, execTlkp, hvalid, h]

theorem exec_tlkp_of_present {s : State} (hvalid : s.tvalid = true) {x : Word}
    (h : s.lookup s.la = some x) :
    exec .tlkp s =
      .next { s with res := x, ok := true, err := 0, done := true, busy := false } := by
  have hrun : exec .tlkp s = .next ((s.setRes x.toNat).finish true) := by
    simp [exec, execTlkp, hvalid, h]
  rw [hrun, State.setRes_latch]
  rfl

/-! ## TVALID (10_state.md R33, 42_mitm_table.md R122) -/

@[simp] theorem busWrite_tvalid (off : Nat) (v : Word) (s : State) :
    (busWrite off v s).tvalid = s.tvalid := by
  rcases busWrite_cases off v s with
    ⟨-, -, h⟩ | ⟨-, -, h⟩ | ⟨-, h⟩ | ⟨-, h⟩ | ⟨-, h⟩ | ⟨-, h⟩ | ⟨-, -, -, -, -, h⟩ <;> simp [h]

theorem runHostOp_tvalid {op : HostOp} {rest : List HostOp} {s t : State}
    (h : runHostOp op rest s = .next t) : t.tvalid = s.tvalid := by
  rcases runHostOp_block h with ht | ⟨width, off, v, -, ht⟩
  · rw [ht]
  · rw [ht]
    exact busWrite_tvalid off _ s

theorem exec_tvalid {i : Instr} {s t : State} (h : exec i s = .next t) (hi : i ≠ .tclr) :
    t.tvalid = s.tvalid := by
  obtain ⟨-, -, -, -, htvalid, -⟩ := completionFrame i s t h
  exact htvalid hi

/-- Of all steps only a reset and the completion of a TCLR write TVALID. -/
theorem step_tvalid {s t : State} (h : step s = .next t) (hreset : s.turn ≠ .reset)
    (hclear : ¬ CompletesTclr s) : t.tvalid = s.tvalid := by
  rcases step_cases h with ⟨hturn, -⟩ | ⟨-, -, rfl⟩ | ⟨i, hturn, hbusy, hdecode, hexec⟩ |
    ⟨e, -, -, -, rfl⟩ | ⟨-, -, rfl⟩ | ⟨op, rest, -, -, hrun⟩
  · exact absurd hturn hreset
  · rfl
  · refine exec_tvalid (s := s.popTurn) hexec ?_
    rintro rfl
    exact hclear ⟨hturn, hbusy, hdecode⟩
  · rfl
  · rfl
  · exact runHostOp_tvalid (s := s.popTurn) hrun

/-! ## TCOUNT (42_mitm_table.md R123) -/

/-- While TVALID = 1 the listed slots are the filled ones below CAP. -/
theorem TableInv.mem_keys_iff {s : State} (h : TableInv s) (hvalid : s.tvalid = true) (k : Nat) :
    k ∈ s.tab.map Prod.fst ↔ k < s.cap ∧ (s.slot k).res ≠ 0 := by
  refine ⟨fun hk => ?_, fun ⟨_, hfilled⟩ => State.mem_keys_of_filled hvalid hfilled⟩
  obtain ⟨-, hwf, hlisted, -⟩ := h
  obtain ⟨p, hp, rfl⟩ := List.mem_map.1 hk
  obtain ⟨hlt, hres⟩ := hlisted p hp
  refine ⟨hlt, ?_⟩
  rwa [State.slot, Assoc.find_of_mem ((Memory.wf_iff _).1 hwf).1 hp]

/-- While TVALID = 1 TCOUNT is the number of filled slots. -/
theorem TableInv.filledSlots_eq {s : State} (h : TableInv s) (hvalid : s.tvalid = true) :
    s.filledSlots = s.tcount.toNat := by
  have hkeys := h.mem_keys_iff hvalid
  obtain ⟨-, hwf, -, hcount, -⟩ := h
  have hperm : ((List.range s.cap).filter fun k => decide ((s.slot k).res ≠ 0)).Perm
      (s.tab.map Prod.fst) :=
    (List.perm_ext_iff_of_nodup (List.nodup_range.filter _)
      (Assoc.nodup_keys ((Memory.wf_iff _).1 hwf).1)).2 fun k => by
        rw [hkeys, List.mem_filter, List.mem_range, decide_eq_true_iff]
  rw [State.filledSlots, hperm.length_eq, List.length_map, hcount hvalid]

/-! ## TCLR -/

/-- Settles O50: no slot of the cleared table is listed, so every walk ends at its home slot. -/
theorem tclrEmptiesTable : Obligations.TclrEmptiesTable := fun s =>
  ⟨s.clearTable.finish true, rfl, rfl, State.slot_clearTable s,
    fun _ => State.lookup_eq_none_of_home_empty rfl⟩

/-! ## The errors -/

/-- Settles O52: residue 0 is tested before the full table. -/
theorem tinsErrorsInOrder : Obligations.TinsErrorsInOrder := fun _ hvalid =>
  ⟨exec_tins_of_zero hvalid, exec_tins_of_full hvalid⟩

/-- Settles O51: TVALID is tested first, and of the steps that write it only TCLR's sets it. -/
theorem tableUninitErrors : Obligations.TableUninitErrors := by
  refine ⟨fun s h => ⟨exec_tins_of_uninit h, exec_tlkp_of_uninit h⟩, rfl,
    fun s t h hbefore hafter => ?_⟩
  by_contra hclear
  have hreset : s.turn ≠ .reset := fun hturn => by
    cases h.symm.trans (step_of_reset_turn hturn)
    simp at hafter
  rw [step_tvalid h hreset hclear, hbefore] at hafter
  cases hafter

/-! ## TINS -/

/-- Settles O57: the empty slot of a table that is not full, and the filled slots before it. -/
theorem emptySlotWithinTcountPlusOneProbes : Obligations.EmptySlotWithinTcountPlusOneProbes := by
  intro s ⟨_, hs⟩ hvalid hlt
  have hroom : s.tcount ≠ s.capr := fun heq => absurd (congrArg BitVec.toNat heq) hlt.ne
  refine ⟨hs.exists_empty_slot hvalid hlt, fun r => ?_,
    fun r k hk => exists_walk_eq (State.homeSlot_lt hs.cap_pos r) hk, (hs.filledSlots_eq hvalid).le⟩
  obtain ⟨i, hi⟩ := hs.exists_firstEmpty hvalid hroom r
  exact ⟨i, Nat.lt_succ_of_le (hi.le_tcount hs hvalid), hi.empty⟩

/-- Settles O53: the insertion at the first empty position, field by field. -/
theorem tinsStoresAtFirstEmptySlot : Obligations.TinsStoresAtFirstEmptySlot := by
  intro s ⟨_, hs⟩ hvalid hresidue hroom
  obtain ⟨i, hi⟩ := hs.exists_firstEmpty hvalid hroom s.opndA
  exact ⟨_, i, exec_tins_of_firstEmpty hvalid hresidue hroom hi, hi.le_tcount hs hvalid,
    hi.filled_before, hi.empty, State.slot_insertEntry_same hs hvalid _,
    fun _ hk => State.slot_insertEntry_other hs hvalid hk,
    State.tcount_insertEntry hs hvalid hroom _,
    State.res_insertEntry (State.probe_lt hs.cap_pos _ _), rfl⟩

/-- Settles O54: the first empty position is within reach of every bound from TCOUNT + 1 on. -/
theorem tinsTerminates : Obligations.TinsTerminates := by
  refine ⟨fun s ⟨_, hs⟩ => hs.execTins_next, fun s ⟨_, hs⟩ hvalid _ hroom => ?_,
    fun s => exec_tins_of_full⟩
  obtain ⟨i, hi⟩ := hs.exists_firstEmpty hvalid hroom s.opndA
  have hle := hi.le_tcount hs hvalid
  exact ⟨hs.tcount_lt_cap hvalid hroom, _, hi.empty, fun _ hbound => hi.findEmpty (by omega)⟩

/-- Settles O58: the count is the invariant's, and TINS's next state meets the invariant again. -/
theorem tcountCountsFilledSlots : Obligations.TcountCountsFilledSlots := by
  refine ⟨fun s ⟨_, hs⟩ => hs.filledSlots_eq, fun s t h => ?clear, fun s t ⟨_, hs⟩ h hok => ?insert,
    fun i s t hclear hinsert h => ?others⟩
  case clear =>
    cases h
    exact ⟨by simp [State.filledSlots, Slot.empty], rfl⟩
  case insert =>
    have ht : TableInv t := (exec_completion h).tableInv hs
    obtain ⟨hvalid, hresidue, hroom, i, hi, rfl⟩ := exec_tins_ok hs.cap_pos h hok
    have hsucc := State.tcount_insertEntry hs hvalid hroom (s.probe s.opndA i)
    refine ⟨⟨_, State.probe_lt hs.cap_pos _ i, hi.empty, ?_,
      fun _ hj => State.slot_insertEntry_other hs hvalid hj⟩, ?_, hsucc⟩
    · rwa [State.slot_insertEntry_same hs hvalid]
    · rw [ht.filledSlots_eq (by simpa using hvalid), hs.filledSlots_eq hvalid, hsucc]
  case others =>
    obtain ⟨-, -, -, htable, -⟩ := completionFrame i s t h
    exact htable hclear hinsert

/-! ## TLKP -/

/-- Settles O55: what the lookup answers in each case, and TLKP's end with it. -/
theorem tlkpOutcome : Obligations.TlkpOutcome := by
  intro s hvalid hcap
  refine ⟨fun hzero => ?_, fun i hi hresidue hhit hbefore => ?_,
    fun i _ hresidue hempty hbefore => ?_, fun _ hmiss => ?_⟩
  · exact exec_tlkp_of_absent hvalid (by rw [hzero]; exact State.lookup_zero)
  · exact exec_tlkp_of_present hvalid (State.lookup_of_first hi hresidue hbefore hhit)
  · refine exec_tlkp_of_absent hvalid
      (State.lookup_eq_none_of_empty_before hcap fun j _ hhit => ⟨i, ?_, hempty⟩)
    have hge : ¬ j < i := fun hlt => hbefore j hlt hhit
    have hne : j ≠ i := by
      rintro rfl
      exact hresidue (hhit.symm.trans hempty)
    omega
  · exact exec_tlkp_of_absent hvalid
      (State.lookup_eq_none_of_empty_before hcap fun j hj hhit => absurd hhit (hmiss j hj))

/-! ## First writer wins (42_mitm_table.md R132) -/

/-- A residue stored at a position that other residues lead up to is found with its exponent. -/
theorem State.lookup_of_stored {s : State} {r x : Word} {i : Nat} (hi : i < s.cap) (hr : r ≠ 0)
    (hbefore : ∀ j < i, (s.slot (s.probe r.toNat j)).res ≠ 0 ∧
      (s.slot (s.probe r.toNat j)).res ≠ r)
    (hstored : s.slot (s.probe r.toNat i) = { exp := x, res := r }) : s.lookup r = some x := by
  rw [State.lookup_of_first hi hr hbefore (congrArg Slot.res hstored), hstored]

/-- The insertion leaves the positions before it as they are. -/
theorem FirstEmpty.slot_insertEntry_before {s : State} {i : Nat} (h : FirstEmpty s s.opndA i)
    (hs : TableInv s) (hvalid : s.tvalid = true) {j : Nat} (hj : j < i) :
    (s.insertEntry (s.probe s.opndA i)).slot (s.probe s.opndA j) = s.slot (s.probe s.opndA j) :=
  State.slot_insertEntry_other hs hvalid fun heq => h.filled_before j hj (by rw [heq, h.empty])

/-- The first empty position lies past a position that only filled ones lead up to. -/
theorem FirstEmpty.lt_of_filled {s : State} {r i j : Nat} (h : FirstEmpty s r j)
    (hfilled : ∀ k ≤ i, (s.slot (s.probe r k)).res ≠ 0) : i < j :=
  Nat.lt_of_not_le fun hle => hfilled j hle h.empty

/-- Settles O60: an insertion writes past every filled position of its probe sequence, and no step
but a reset and TCLR's changes a filled slot, so the first match of a residue stays its first
match. -/
theorem firstWriterWins : Obligations.FirstWriterWins := by
  refine ⟨fun s t ⟨_, hs⟩ habsent h hok => ?absent,
    fun s t i ⟨_, hs⟩ hi hhit hbefore h hok => ?present,
    fun s t r x hs hvalid hfound h hreset hclear => ?kept, fun s x hvalid hfound => ?answer⟩
  case absent =>
    obtain ⟨hvalid, hresidue, -, i, hi, rfl⟩ := exec_tins_ok hs.cap_pos h hok
    have hstored := State.slot_insertEntry_same hs hvalid (s.probe s.opndA i)
    have hother := State.ne_of_lookup_eq_none hresidue habsent hi.lt_cap.le hi.filled_before
    have hbefore (j : Nat) (hj : j < i) :
        ((s.insertEntry (s.probe s.opndA i)).slot (s.probe s.opndA j)).res ≠ 0 ∧
        ((s.insertEntry (s.probe s.opndA i)).slot (s.probe s.opndA j)).res ≠ s.la := by
      rw [hi.slot_insertEntry_before hs hvalid hj]
      exact ⟨hi.filled_before j hj, hother j hj⟩
    exact ⟨State.lookup_of_stored hi.lt_cap hresidue hbefore hstored, i, hi.lt_cap, hstored,
      hbefore⟩
  case present =>
    obtain ⟨hvalid, hresidue, -, j, hj, rfl⟩ := exec_tins_ok hs.cap_pos h hok
    have hfilled : ∀ k ≤ i, (s.slot (s.probe s.opndA k)).res ≠ 0 := fun k hk => by
      rcases Nat.lt_or_eq_of_le hk with hlt | rfl
      · exact (hbefore k hlt).1
      · rwa [hhit]
    exact ⟨j, hj.lt_of_filled hfilled, hj.lt_cap, hj.empty,
      State.slot_insertEntry_same hs hvalid _⟩
  case answer => exact exec_tlkp_of_present hvalid hfound
  case kept =>
    have hkept (k : Nat) (hfilled : (s.slot k).res ≠ 0) : t.slot k = s.slot k :=
      filledSlotKeptUntilClearOrReset s t k hs hvalid hfilled h hreset hclear
    exact ⟨(step_tvalid h hreset hclear).trans hvalid,
      State.lookup_of_filled_kept hs.2.cap_pos (caprIsConstant s t h) hkept hfound⟩

end Sys2Proof.Machine
end

section
/-! PROOFS. The statements of reset and hazards (70_reset_and_hazards.md): the Euclidean loop ends
within 45 division steps, and a reset restores the value after reset. -/

namespace Sys2Proof.Machine

/-! ## The Euclidean loop's bound (70_reset_and_hazards.md R177, 10_state.md R43) -/

/-- A larger bound goes on where the smaller one stopped. -/
theorem euclidLoop_add (m n : Nat) (e : EuclidRegs) :
    euclidLoop (m + n) e = euclidLoop n (euclidLoop m e) := by
  induction m generalizing e with
  | zero => rw [Nat.zero_add, euclidLoop]
  | succ m ih =>
    by_cases hz : e.r1 = 0
    · rw [euclidLoop_done hz, euclidLoop_done hz, euclidLoop_done hz]
    · rw [Nat.succ_add, euclidLoop_step hz, euclidLoop_step hz, ih]

/-- Once the loop has ended, a larger bound changes nothing. -/
theorem euclidLoop_eq_of_ended {m n : Nat} {e : EuclidRegs} (hle : m ≤ n)
    (hend : (euclidLoop m e).r1 = 0) : euclidLoop n e = euclidLoop m e := by
  obtain ⟨k, rfl⟩ := Nat.exists_eq_add_of_le hle
  rw [euclidLoop_add, euclidLoop_done hend]

/-- Equal remainders, 0 among them, end the loop within one iteration. -/
theorem euclidLoop_r1_eq_zero_of_eq (n : Nat) {e : EuclidRegs} (h : e.r0 = e.r1) :
    (euclidLoop (n + 1) e).r1 = 0 := by
  by_cases hz : e.r1 = 0
  · rw [euclidLoop_done hz, hz]
  · have hstep : (euclidStep e).r1 = 0 := by rw [euclidStep_r1, h, Nat.mod_self]
    rw [euclidLoop_step hz, euclidLoop_done hstep, hstep]

/-- 45 iterations are enough for u32 operands: `2 ^ 32` is below the 48th Fibonacci number. -/
theorem euclidLoop_45_r1_eq_zero {x y : Nat} (hle : y ≤ x) (hx : x < 2 ^ 32) :
    (euclidLoop 45 (euclidStart x y)).r1 = 0 := by
  rcases hle.lt_or_eq with hlt | heq
  · have hfib : 2 ^ 32 < Nat.fib (45 + 3) := by norm_num
    exact euclidLoop_r1_eq_zero hlt (.inr (hx.trans hfib))
  · exact euclidLoop_r1_eq_zero_of_eq 44 heq.symm

/-- Settles O42: the loop has ended after 45 iterations, so the model's larger bound adds none. -/
theorem euclidEndsWithin45Steps : Obligations.EuclidEndsWithin45Steps := fun _ _ hle hx =>
  have hend := euclidLoop_45_r1_eq_zero hle hx
  have hbound : 45 ≤ Config.euclidIterations := by decide
  ⟨hend, euclidLoop_eq_of_ended hbound hend⟩

/-! ## Reset (70_reset_and_hazards.md R165) -/

/-- After a reset no slot is listed and TVALID is 0, so every slot is unspecified (10_state.md R44). -/
theorem State.slot_resetBlock (s : State) (k : Nat) :
    s.resetBlock.slot k = Slot.ofBits (Config.unspecifiedSlot (s.resets + 1) k) := rfl

/-- Settles O6: the turn of reset is `resetBlock`, which names what it keeps of the old state. -/
theorem resetEventRestoresResetState : Obligations.ResetEventRestoresResetState := fun s hturn =>
  ⟨s.popTurn.resetBlock, step_of_reset_turn hturn, rfl, State.slot_resetBlock s.popTurn⟩

end Sys2Proof.Machine
end
